-- ==== Sys2Proof/Word.lean ====
section
/-! DEFINITION. The word types of HUFFCORE: symbols and buffer bytes, 32-bit words, bit-strings, node
indices, queue elements and the 256-entry tables indexed by a symbol. -/

namespace Sys2Proof

/-- A byte: a symbol, a buffer byte, a `codeLen` (00_scope.md R8, R9). -/
abbrev Byte := BitVec 8

/-- A 32-bit unsigned word: host registers, frequencies, `validBitCount` (00_scope.md R8). -/
abbrev Word := BitVec 32

/-- A bit-string, first bit first; `true` is the bit 1 (00_scope.md R11). -/
abbrev Bits := List Bool

/-- A 9-bit index into ARENA (10_state.md R30). -/
abbrev NodeIdx := BitVec 9

/-- The code number of an element of the PriorityQueue's type T, which is a parameter of the instance
(`QueueParams.elems`); in the integrated block the code number of a node index is the index itself
(40_priority_queue.md R100, R115; log 2). -/
abbrev Elem := Nat

/-- A table with one entry per symbol (10_state.md R29, R33). -/
abbrev Table (α : Type) := Vector α 256

/-- The table with every entry `x`. It is irreducible so that comparing two states never unfolds 256
entries; its laws are in Laws/Memory.lean. -/
@[irreducible] def constTable {α : Type} (x : α) : Table α := Vector.replicate 256 x

/-- The table whose entry for symbol `k` is `f k`; irreducible like `constTable`. -/
@[irreducible] def tableOf {α : Type} (f : Nat → α) : Table α := Vector.ofFn fun i => f i.val

end Sys2Proof
end

