-- ==== Sys2Proof/Syntax.lean ====
section
/-! DEFINITION. The instructions of HUFFCORE: the 14 operations of spec/opcode_table.json. -/

namespace Sys2Proof

/-- One constructor per row of the opcode table (30_encoding.md R71). No operation has a written
operand: operands are in registers and buffers (30_encoding.md R70, R74). -/
inductive Instr where
  | compress
  | decompress
  | pqInsert
  | pqExtractMin
  | pqBuild
  | pqDecreaseKey
  | fcCount
  | tbBuild
  | cgGen
  | cgInvert
  | bpEncode
  | bpDecode
  | cfWrite
  | cfRead
deriving DecidableEq, Repr

end Sys2Proof
end

