-- ==== Sys2Proof/Machine/Types.lean ====
section
/-! DEFINITION. The plain data types that the state is made of: tree nodes, reverse-table entries,
errors, phases, buffers, instance parameters, the inputs of the machine and the written lines. -/

namespace Sys2Proof.Machine

/-- One ARENA record, "Leaf{symbol, frequency} or Internal{frequency, left-child, right-child}"
(10_state.md R30). -/
inductive Node where
  | leaf (sym : Byte) (freq : Word)
  | internal (freq : Word) (left right : NodeIdx)
deriving DecidableEq, Repr

/-- One entry of the ReverseTable; its `len` is the length of `bits` (10_state.md R34). -/
structure RevEntry where
  bits : Bits
  sym : Byte
deriving DecidableEq, Repr

/-- The errors of 60_exceptions.md R205. -/
inductive Err where
  | overflow
  | empty
  | capacity
  | range
  | ordering
  | format
  | incompleteData
  | unknownSymbol
  | duplicateCode
  | outputOverflow
  | command
deriving DecidableEq, Repr

/-- The states of the two state machines; each names completed work (10_state.md R22,
45_top_level.md R194). -/
inductive Phase where
  | idle
  | counting
  | treeBuilt
  | codesGenerated
  | packed
  | written
  | headerParsed
  | tableLoaded
  | bitsWalked
deriving DecidableEq, Repr

/-- The running top-level operation OP (10_state.md R22). -/
inductive TopOp where
  | idle
  | compress
  | decompress
deriving DecidableEq, Repr

/-- The three byte-addressed spaces (20_memory.md R50). -/
inductive Space where
  | ibuf
  | obuf
  | payload
deriving DecidableEq, Repr

/-- A byte buffer: the bytes written since its content last became unspecified, by address, and the
draw under which its other bytes are free (log 4). -/
structure Mem where
  cells : List Host.Cell
  epoch : Nat
deriving DecidableEq, Repr

/-- The ordering predicate `less` of a PriorityQueue instance, as plain data that names it
(40_priority_queue.md R100; log 2). -/
inductive Order where
  /-- The TreeBuilder's `nodeLess` (41_tree_builder.md R125). -/
  | node
  /-- The strict weak order that ranks element `e` at `ranks[e]`, and at `e` itself where the list
  ends before it; with the empty list the order of the natural numbers. -/
  | ranked (ranks : List Nat)
  /-- An order turned round: `less a b` is the other order's `less b a`. -/
  | reversed (o : Order)
  /-- The caller-supplied order number `k`, of which nothing is known but that it is a strict weak
  order: the one that `Config.callerRank k` ranks. -/
  | caller (k : Nat)
deriving DecidableEq, Repr

/-- The parameters of a PriorityQueue instance (40_priority_queue.md R100): CAP, the element type T
and `less`. T is the set of code numbers below `elems`, or of all code numbers (log 2). -/
structure QueueParams where
  cap : Nat
  elems : Option Nat
  order : Order
deriving DecidableEq, Repr

/-- The parameters of a HUFFCORE instance that the spec leaves OPEN (00_scope.md R8). A 32-bit word
holds exactly the capacities the spec admits, at most 2^32 - 1. -/
structure Params where
  queue : QueueParams
  ibufCap : Word
  obufCap : Word
deriving DecidableEq, Repr

/-- What the world outside the engine does next (log 9): the reset event (70_reset_and_hazards.md
R240), the host's register and buffer writes (10_state.md R23, R26, R37; 20_memory.md R67), one
turn of the engine, the host's poll until BUSY = 0 (70_reset_and_hazards.md R243), an operation
code presented to the block (30_encoding.md R72), and the operands of the PriorityQueue's
component interface (10_state.md R28). -/
inductive Input where
  | reset
  | writeCmd (code : Byte)
  | writeIlen (n : Word)
  | writeIbuf (addr : Nat) (b : Byte)
  | writeObuf (addr : Nat) (b : Byte)
  | engine
  | poll
  | operate (code : Byte)
  | setArgv (v : Elem)
  | setArgi (i : Nat)
  | setItems (items : List Elem)
deriving DecidableEq, Repr

/-- One written line of a program (30_encoding.md R90): an operation with its written operands, or
the loading of the input buffer. -/
inductive Line where
  | insert (v : Elem)
  | build (items : List Elem)
  | decreaseKey (i : Nat) (v : Elem)
  | plain (i : Instr)
  | load (bytes : List Byte)
deriving DecidableEq, Repr

end Sys2Proof.Machine
end

