-- ==== Sys2Proof/Config.lean ====
section
/-! DEFINITION. What an implementation fixes (00_scope.md R8) and the free values: constants without
a body for everything the spec leaves unspecified after a point where the machine goes on. -/

namespace Sys2Proof.Config

open Sys2Proof.Machine

/-- MAX_TEXT_LEN = 2^29 - 1, the longest input COMPRESS accepts (00_scope.md R8). -/
def maxTextLen : Nat := 536870911

/-- The largest `validBitCount`, 2^32 - 1 (43_bit_packer.md R152). -/
def maxBitCount : Nat := 4294967295

/-- The TreeBuilder's queue: CAP_TB = 256, T = 9-bit node index and `nodeLess` (40_priority_queue.md
R115). -/
def treeQueue : QueueParams := { cap := 256, elems := some 512, order := .node }

/-- Where the caller-supplied order number `k` ranks an element. Without a body it is an argument
that no proof can look into, and every strict weak order on code numbers is one of these: a
countable order embeds in the rational numbers (40_priority_queue.md R100; 00_scope.md R8; log 2). -/
opaque callerRank (k : Nat) (e : Elem) : Rat

/-- The parameters of the instance `State.reset` describes: the integrated block's queue, and the
largest capacities the spec admits for the two it leaves OPEN. DESIGN CHOICE, unsafe for a claim
about `State.reset` alone (log 1). -/
def defaultParams : Params :=
  { queue := treeQueue, ibufCap := 0xFFFFFFFF#32, obufCap := 0xFFFFFFFF#32 }

/-- The byte a reader finds at an address of a buffer that nothing has written since draw `epoch`.
Free value (log 4). -/
opaque unwrittenByte (sp : Space) (epoch addr : Nat) : Byte

/-- A 32-bit register or counter that a failed operation leaves unspecified. Free value (log 5). -/
opaque freeWord (draw slot : Nat) : Word

/-- A cursor, an element or an index that a failed operation leaves unspecified. Free value (log 5). -/
opaque freeNat (draw slot : Nat) : Nat

/-- A bit-string that a failed operation leaves unspecified. Free value (log 5). -/
opaque freeBits (draw slot : Nat) : Bits

/-- The arena records that an aborted command leaves. Free value (log 5). -/
opaque freeNodes (draw : Nat) : List Node

/-- The ROOT that an aborted command leaves. Free value (log 5). -/
opaque freeRoot (draw : Nat) : Option NodeIdx

/-- The queue elements that an aborted command leaves. Free value (log 5). -/
opaque freeElems (draw : Nat) : List Elem

/-- The reverse-table entries that a failed operation leaves. Free value (log 5). -/
opaque freeRev (draw : Nat) : List RevEntry

/-- The packer's partial byte after a failed operation. Free value (log 5, log 16). -/
opaque freeByte (draw : Nat) : Byte

/-- The packer's bit count after a failed operation. Free value (log 5, log 16). -/
opaque freeCnt (draw : Nat) : BitVec 3

/-- Bit `i` of a packed stream that has no byte `i / 8`. Free value (log 15). -/
opaque strayBit (draw i : Nat) : Bool

/-- The frequency of an Internal node whose children's frequencies add up to 2^32 or more. Free
value (log 14). -/
opaque wideSum (x y : Word) : Word

/-- The frequency read for an index that names no ARENA record. Free value (log 14). -/
opaque noRecordFreq (k : Nat) : Word

end Sys2Proof.Config
end

