-- ==== Sys2Proof/WellFormed.lean ====
section
/-! DEFINITION. Which instructions, instance parameters and written lines are well formed. -/

namespace Sys2Proof

open Sys2Proof.Machine

/-- Every instruction is well formed: a command code carries no operand that could be out of range
(30_encoding.md R70). -/
def Instr.wellFormed : Instr → Bool
  | .compress => true
  | .decompress => true
  | .pqInsert => true
  | .pqExtractMin => true
  | .pqBuild => true
  | .pqDecreaseKey => true
  | .fcCount => true
  | .tbBuild => true
  | .cgGen => true
  | .cgInvert => true
  | .bpEncode => true
  | .bpDecode => true
  | .cfWrite => true
  | .cfRead => true

/-- The parameters of an instance: the queue's capacity is at least 1 (00_scope.md R8). -/
def Machine.Params.wellFormed (p : Params) : Bool := decide (1 ≤ p.queue.cap)

/-- Whether a code number is that of an element of the instance's type T (40_priority_queue.md R100,
R115; log 2). -/
def Machine.QueueParams.isElem (q : QueueParams) (e : Elem) : Bool :=
  match q.elems with
  | none => true
  | some n => decide (e < n)

/-- A written line fits an instance: a written value is an element of T, the operations that take a
written operand are not written bare, an index is wide enough for 0 to CAP, and a loaded input fits
IBUF (30_encoding.md R90; 10_state.md R28; 00_scope.md R8). -/
def Machine.Line.wellFormed (p : Params) : Line → Bool
  | .insert v => p.queue.isElem v
  | .build items => items.all p.queue.isElem
  | .decreaseKey i v => decide (i ≤ p.queue.cap) && p.queue.isElem v
  | .plain i => i != .pqInsert && i != .pqBuild && i != .pqDecreaseKey
  | .load bytes => decide (bytes.length ≤ p.ibufCap.toNat)

end Sys2Proof
end

