-- ==== Sys2Proof/Decode.lean ====
section
/-! DEFINITION. Decoding of command codes, total on any bytes and rejecting by name, and after it the
encoder, both written from the tables of 30_encoding.md R70 and R71. -/

namespace Sys2Proof

/-- Why bytes are no command code. -/
inductive Reject where
  /-- There is no byte to decode. -/
  | noByte
  /-- Bits 7:4 are 6 to 15: no such unit (30_encoding.md R70). -/
  | unassignedUnit (unit : BitVec 4)
  /-- The unit has no such operation (30_encoding.md R71, R73). -/
  | unassignedOp (unit op : BitVec 4)
deriving DecidableEq, Repr

/-- Bits 7:4 of a command code (30_encoding.md R70). -/
def codeUnit (c : Byte) : BitVec 4 := c.extractLsb' 4 4

/-- Bits 3:0 of a command code (30_encoding.md R70). -/
def codeOp (c : Byte) : BitVec 4 := c.extractLsb' 0 4

/-- The operation a command code selects (30_encoding.md R71, R73). -/
def decodeByte (c : Byte) : Except Reject Instr :=
  match (codeUnit c).toNat, (codeOp c).toNat with
  | 0, 1 => .ok .compress
  | 0, 2 => .ok .decompress
  | 1, 0 => .ok .pqInsert
  | 1, 1 => .ok .pqExtractMin
  | 1, 2 => .ok .pqBuild
  | 1, 3 => .ok .pqDecreaseKey
  | 2, 0 => .ok .fcCount
  | 2, 1 => .ok .tbBuild
  | 3, 0 => .ok .cgGen
  | 3, 1 => .ok .cgInvert
  | 4, 0 => .ok .bpEncode
  | 4, 1 => .ok .bpDecode
  | 5, 0 => .ok .cfWrite
  | 5, 1 => .ok .cfRead
  | u, _ =>
    if u < 6 then .error (.unassignedOp (codeUnit c) (codeOp c))
    else .error (.unassignedUnit (codeUnit c))

/-- Decode the first byte of a byte sequence; the rest is returned with the instruction. -/
def decode : List Byte → Except Reject (Instr × List Byte)
  | [] => .error .noByte
  | c :: rest =>
    match decodeByte c with
    | .ok i => .ok (i, rest)
    | .error r => .error r

/-- The unit field of an operation's code (30_encoding.md R71). -/
def unitOf : Instr → BitVec 4
  | .compress => 0
  | .decompress => 0
  | .pqInsert => 1
  | .pqExtractMin => 1
  | .pqBuild => 1
  | .pqDecreaseKey => 1
  | .fcCount => 2
  | .tbBuild => 2
  | .cgGen => 3
  | .cgInvert => 3
  | .bpEncode => 4
  | .bpDecode => 4
  | .cfWrite => 5
  | .cfRead => 5

/-- The op field of an operation's code (30_encoding.md R71). -/
def opOf : Instr → BitVec 4
  | .compress => 1
  | .decompress => 2
  | .pqInsert => 0
  | .pqExtractMin => 1
  | .pqBuild => 2
  | .pqDecreaseKey => 3
  | .fcCount => 0
  | .tbBuild => 1
  | .cgGen => 0
  | .cgInvert => 1
  | .bpEncode => 0
  | .bpDecode => 1
  | .cfWrite => 0
  | .cfRead => 1

/-- The command code of an operation, unit above op (30_encoding.md R70). -/
def encodeByte (i : Instr) : Byte := unitOf i ++ opOf i

/-- The words of an instruction: its one command code. -/
def encode (i : Instr) : List Byte := [encodeByte i]

/-- What the decoder reads from an instruction of `nbits` bits whose bits are `w`, numbered as the
opcode table numbers them. -/
def decodeTableWord (nbits w : Nat) : Option Instr :=
  match decode [BitVec.ofNat 8 (w % 2 ^ nbits)] with
  | .ok (i, _) => some i
  | .error _ => none

end Sys2Proof
end

