-- ==== Sys2Proof/Machine/State.lean ====
section
/-! DEFINITION. The state of HUFFCORE as plain data, the state after reset, and the reasons a step can
stop. -/

namespace Sys2Proof.Machine

/-- Everything the spec gives the machine (10_state.md R20 to R42), and the model's own fields
`params`, `unitErr`, `inputs` and `fresh` (log 1, 7, 9, 5). SIZE, NNODES and RN are the lengths of
`heap`, `arena` and `rev` (log 17). -/
structure State where
  /-- The instance's parameters; no step changes them (log 1). -/
  params : Params
  /-- OP (R22). -/
  op : TopOp
  /-- PHASE (R22). -/
  phase : Phase
  /-- STATUS.BUSY (R24). -/
  busy : Bool
  /-- STATUS.DONE (R24). -/
  done : Bool
  /-- STATUS.ERR (R24). -/
  err : Bool
  /-- ERRINFO (R25). -/
  errinfo : Word
  /-- ILEN (R26). -/
  ilen : Word
  /-- OLEN (R27). -/
  olen : Word
  /-- IBUF (R37). -/
  ibuf : Mem
  /-- OBUF (R38). -/
  obuf : Mem
  /-- PAYLOAD (R36). -/
  payload : Mem
  /-- PLEN (R36). -/
  plen : Word
  /-- VBC (R35). -/
  vbc : Word
  /-- PQ_ARGV (R28). -/
  pqArgv : Elem
  /-- PQ_ARGI (R28). -/
  pqArgi : Nat
  /-- PQ_RES (R28). -/
  pqRes : Elem
  /-- What stands at the queue's item port (R28). -/
  pqItems : List Elem
  /-- HEAP[0 .. SIZE) (R32). -/
  heap : List Elem
  /-- FREQ (R29). -/
  freq : Table Word
  /-- ARENA[0 .. NNODES) (R30, R31). -/
  arena : List Node
  /-- ROOT (R31). -/
  root : Option NodeIdx
  /-- CODE; an absent symbol has the empty bit-string, len 0 (R33). -/
  code : Table Bits
  /-- REV[0 .. RN) (R34). -/
  rev : List RevEntry
  /-- ACC (R39). -/
  acc : Bits
  /-- PK_BYTE (R40). -/
  pkByte : Byte
  /-- PK_CNT (R40). -/
  pkCnt : BitVec 3
  /-- RPOS (R41). -/
  rpos : Nat
  /-- WPOS (R41). -/
  wpos : Nat
  /-- BITPOS (R41). -/
  bitpos : Nat
  /-- The error that the last component operation run stand-alone ended with (60_exceptions.md
  R222; log 7). -/
  unitErr : Option Err
  /-- What the host, the driver and the reset line do next (log 9). -/
  inputs : List Input
  /-- The draw counter of the free values (log 5). -/
  fresh : Nat
deriving DecidableEq, Repr

/-- Why the machine stops. Every one is safe: the model stops where the spec gives no effect. -/
inductive Fault where
  /-- An IBUF address at or beyond IBUF_CAP, which does not exist (20_memory.md R50): raised by
  FC.COUNT, BP.ENCODE and CF.READ run stand-alone with ILEN > IBUF_CAP, and by a host write. Safe
  (log 12). -/
  | ibufAddress
  /-- An OBUF address at or beyond OBUF_CAP: raised by a host write. Safe (log 12). -/
  | obufAddress
  /-- BUSY = 1 with a pair (OP, PHASE) that never occurs (10_state.md R22): raised by the
  sequencer. Safe (log 19). -/
  | noSuchPhase
deriving DecidableEq, Repr

/-- Why a step has no meaning. Every one is safe. -/
inductive Refusal where
  /-- An instruction whose meaning is not in the model: raised by `exec` alone; no arm raises it. -/
  | notModelled (mnemonic : String)
  /-- A host or driver access other than a CMD write or a reset while BUSY = 1, which has no step
  (92_eei_decisions.md D29): raised by the sequencer. Safe (log 10). -/
  | accessWhileBusy
  /-- A value at the queue's interface that is no element of the instance's type T, which its
  registers cannot hold (40_priority_queue.md R100): raised by the sequencer. Safe (log 23). -/
  | notAnElement
  /-- An unassigned code at the operation port (30_encoding.md R73): raised by the sequencer. Safe
  (log 20). -/
  | unassignedCode (reason : Reject)
deriving DecidableEq, Repr

/-- SIZE (10_state.md R32). -/
def State.size (s : State) : Nat := s.heap.length

/-- NNODES (10_state.md R31). -/
def State.nnodes (s : State) : Nat := s.arena.length

/-- RN (10_state.md R34). -/
def State.rn (s : State) : Nat := s.rev.length

/-- An instance with parameters `p` right after reset: the values of 10_state.md R43, nothing
written in any buffer (log 4), and 0, empty or None for every register that R43 leaves unspecified
(DESIGN CHOICE, log 3). -/
def State.resetWith (p : Params) : State where
  params := p
  op := .idle
  phase := .idle
  busy := false
  done := false
  err := false
  errinfo := 0#32
  ilen := 0#32
  olen := 0#32
  ibuf := { cells := [], epoch := 0 }
  obuf := { cells := [], epoch := 0 }
  payload := { cells := [], epoch := 0 }
  plen := 0#32
  vbc := 0#32
  pqArgv := 0
  pqArgi := 0
  pqRes := 0
  pqItems := []
  heap := []
  freq := constTable 0#32
  arena := []
  root := none
  code := constTable []
  rev := []
  acc := []
  pkByte := 0#8
  pkCnt := 0#3
  rpos := 0
  wpos := 0
  bitpos := 0
  unitErr := none
  inputs := []
  fresh := 1

/-- The machine right after reset (70_reset_and_hazards.md R240), for the instance of log 1. -/
def State.reset : State := State.resetWith Config.defaultParams

end Sys2Proof.Machine
end

