-- ==== Sys2Proof/Machine/Flags.lean ====
section
/-! DEFINITION. The numeric codes of errors, phases and operations, the STATUS and ERRINFO words, and
the writes of the three status flags (10_state.md R22 to R25, R42; 60_exceptions.md R205). -/

namespace Sys2Proof.Machine

/-- The numeric code of an error (60_exceptions.md R205). -/
def errCode : Err → Byte
  | .overflow => 1
  | .empty => 2
  | .capacity => 3
  | .range => 4
  | .ordering => 5
  | .format => 6
  | .incompleteData => 7
  | .unknownSymbol => 8
  | .duplicateCode => 9
  | .outputOverflow => 14
  | .command => 15

/-- The value of a phase (10_state.md R22). -/
def phaseCode : Phase → BitVec 4
  | .idle => 0
  | .counting => 1
  | .treeBuilt => 2
  | .codesGenerated => 3
  | .packed => 4
  | .written => 5
  | .headerParsed => 8
  | .tableLoaded => 9
  | .bitsWalked => 10

/-- The value of OP (10_state.md R22). -/
def topOpCode : TopOp → BitVec 2
  | .idle => 0
  | .compress => 1
  | .decompress => 2

/-- The STATUS word: OP in 9:8, PHASE in 7:4, bit 3 zero, ERR, DONE, BUSY in bits 2, 1, 0, and bits
31:10 zero (10_state.md R24). -/
def statusWord (s : State) : Word :=
  0#22 ++ topOpCode s.op ++ phaseCode s.phase ++ 0#1 ++ BitVec.ofBool s.err ++
    BitVec.ofBool s.done ++ BitVec.ofBool s.busy

/-- The ERRINFO word: CODE in 7:0, EPHASE in 11:8, EOP in 13:12, bits 31:14 zero (10_state.md R25). -/
def errInfoWord (e : Err) (p : Phase) (o : TopOp) : Word :=
  0#18 ++ topOpCode o ++ phaseCode p ++ errCode e

/-- ERRINFO.CODE (10_state.md R25). -/
def errInfoCode (w : Word) : Byte := w.extractLsb' 0 8

/-- ERRINFO.EPHASE (10_state.md R25). -/
def errInfoPhase (w : Word) : BitVec 4 := w.extractLsb' 8 4

/-- ERRINFO.EOP (10_state.md R25). -/
def errInfoOp (w : Word) : BitVec 2 := w.extractLsb' 12 2

/-- What command issue clears: DONE, ERR, ERRINFO and OLEN (45_top_level.md R186). -/
def State.clearReport (s : State) : State :=
  { s with done := false, err := false, errinfo := 0#32, olen := 0#32 }

/-- `OP <- o` (45_top_level.md R186). -/
def State.setOp (s : State) (o : TopOp) : State := { s with op := o }

/-- Command issue sets BUSY (45_top_level.md R186). -/
def State.setBusy (s : State) : State := { s with busy := true }

/-- `PHASE <- p` (00_scope.md R16). -/
def State.setPhase (s : State) (p : Phase) : State := { s with phase := p }

/-- `complete`: PHASE and OP to idle, DONE set, BUSY cleared (45_top_level.md R192). -/
def State.complete (s : State) : State :=
  { s with phase := .idle, op := .idle, done := true, busy := false }

end Sys2Proof.Machine
end

