-- ==== Sys2Proof/Machine/Operands.lean ====
section
/-! DEFINITION. The operand forms: byte and bit order of multi-byte and packed values, table access,
buffer reads and writes, and the lookup in the ReverseTable. -/

namespace Sys2Proof.Machine

/-- `ceil(n / 8)` without wrapping (00_scope.md R9, R10). -/
def ceilDiv8 (n : Nat) : Nat := (n + 7) / 8

/-- `U32(B)`: little-endian, the byte at the lowest address is the least significant (20_memory.md
R52, R53). -/
def u32 : List Byte → Nat
  | [] => 0
  | b :: bs => b.toNat + 256 * u32 bs

/-- `BytesU32(v)`, four bytes little-endian (20_memory.md R53). -/
def bytesU32 (v : Nat) : List Byte :=
  [BitVec.ofNat 8 v, BitVec.ofNat 8 (v / 256), BitVec.ofNat 8 (v / 65536),
    BitVec.ofNat 8 (v / 16777216)]

/-- Bit `k` of a byte, the bit of weight 2^k (00_scope.md R9). -/
def byteBit (b : Byte) (k : Nat) : Bool := b.getLsbD k

/-- A byte with bit `k` set to `v` and its other bits unchanged (20_memory.md R55). -/
def setByteBit (b : Byte) (k : Nat) (v : Bool) : Byte :=
  if v then b ||| (1#8 <<< k) else b &&& ~~~(1#8 <<< k)

/-- The entry of a table for one symbol (00_scope.md R13). -/
def tableGet {α : Type} (t : Table α) (b : Byte) : α := t[b.toNat]'b.isLt

/-- A table with the entry of one symbol replaced (00_scope.md R13). -/
def tableSet {α : Type} (t : Table α) (b : Byte) (x : α) : Table α := t.set b.toNat x b.isLt

/-- The symbols 0 to 255 in ascending order, the range of the loops `for s in 0 .. 256`. -/
def symbols : List Byte := (List.range 256).map (BitVec.ofNat 8)

/-- The entries of a table in ascending symbol order, each with its symbol: what the loops
`for s in 0 .. 256` over a table that they do not write go through (00_scope.md R13, R16). -/
def entries {α : Type} (t : Table α) : List (Byte × α) := symbols.zip t.toList

/-- The byte listed at an address. -/
def lookupCell : List Host.Cell → Nat → Option Byte
  | [], _ => none
  | (k, b) :: r, a => if k = a then some b else lookupCell r a

/-- The cells with the byte at `a` replaced, or listed where it was not, in address order. -/
def insertCell : List Host.Cell → Nat → Byte → List Host.Cell
  | [], a, v => [(a, v)]
  | (k, b) :: r, a, v =>
    if a < k then (a, v) :: (k, b) :: r
    else if a = k then (a, v) :: r
    else (k, b) :: insertCell r a v

/-- The canonical form of a buffer: addresses strictly rising. An unlisted address has no value, so
no listed byte can equal what an unlisted one reads as (log 4). -/
abbrev Mem.wf (m : Mem) : Prop := m.cells.Pairwise (fun x y => x.1 < y.1)

/-- What an unlisted address of a buffer holds: no value (log 4). -/
def Mem.written (m : Mem) (a : Nat) : Option Byte := lookupCell m.cells a

/-- `MemRead(S, a, 1)` (00_scope.md R14); a byte that nothing has written is free (log 4). -/
def Mem.read (sp : Space) (m : Mem) (a : Nat) : Byte :=
  match m.written a with
  | some b => b
  | none => Config.unwrittenByte sp m.epoch a

/-- `MemWrite(S, a, 1, [b])` (00_scope.md R14). -/
def Mem.write (m : Mem) (a : Nat) (b : Byte) : Mem := { m with cells := insertCell m.cells a b }

/-- `MemRead(S, a, n)` (00_scope.md R14). -/
def Mem.readBytes (sp : Space) (m : Mem) (a n : Nat) : List Byte :=
  (List.range n).map fun k => m.read sp (a + k)

/-- `MemWrite(S, a, len(B), B)`, in ascending address order (00_scope.md R14; 20_memory.md R57). -/
def Mem.writeBytes (m : Mem) (a : Nat) : List Byte → Mem
  | [] => m
  | b :: bs => (m.write a b).writeBytes (a + 1) bs

/-- A buffer whose content is unspecified from now on, under draw `n` (log 4, log 5). -/
def Mem.scrubbed (n : Nat) : Mem := { cells := [], epoch := n }

/-- `Bit(S, i)` of a packed bit stream at address 0, most significant bit first (20_memory.md R51,
R54). -/
def Mem.bit (sp : Space) (m : Mem) (i : Nat) : Bool := byteBit (m.read sp (i / 8)) (7 - i % 8)

/-- `SetBit(S, i, v)` (20_memory.md R55). -/
def Mem.setBit (sp : Space) (m : Mem) (i : Nat) (v : Bool) : Mem :=
  m.write (i / 8) (setByteBit (m.read sp (i / 8)) (7 - i % 8) v)

/-- `RevLookup(c)`: an exact match of the whole bit-string (42_code_generator.md R144). -/
def revLookup (rev : List RevEntry) (c : Bits) : Option Byte :=
  (rev.find? fun e => e.bits == c).map RevEntry.sym

/-- Whether some entry of the ReverseTable has the symbol `b` (44_container.md R171). -/
def revHasSym (rev : List RevEntry) (b : Byte) : Bool := rev.any fun e => e.sym == b

/-- The frequency of the node at an arena index (10_state.md R30); free where there is no record
(log 14). -/
def nodeFreq (arena : List Node) (k : Nat) : Word :=
  match arena[k]? with
  | some (.leaf _ f) => f
  | some (.internal f _ _) => f
  | none => Config.noRecordFreq k

/-- The sum of two frequencies: the mathematical sum (00_scope.md R10); free where it does not fit 32
bits (log 14). -/
def addFreq (x y : Word) : Word :=
  if x.toNat + y.toNat < 2 ^ 32 then x + y else Config.wideSum x y

/-- `nodeLess(a, b)`: (frequency, index) lexicographic (41_tree_builder.md R125). -/
def nodeLess (arena : List Node) (a b : Nat) : Bool :=
  decide ((nodeFreq arena a).toNat < (nodeFreq arena b).toNat ∨
    ((nodeFreq arena a).toNat = (nodeFreq arena b).toNat ∧ a < b))

/-- The rank of an element under a table of ranks (log 2). -/
def rankOf (ranks : List Nat) (e : Elem) : Nat :=
  match ranks[e]? with
  | some r => r
  | none => e

/-- The predicate `less` of a queue instance (40_priority_queue.md R100, R115). -/
def orderLess (o : Order) (arena : List Node) (a b : Elem) : Bool :=
  match o with
  | .node => nodeLess arena a b
  | .ranked ranks => decide (rankOf ranks a < rankOf ranks b)
  | .reversed o' => orderLess o' arena b a
  | .caller k => decide (Config.callerRank k a < Config.callerRank k b)

/-- The first code number that an element register or HEAP slot cannot hold: it holds an element of T,
and a node index of 9 bits where the TreeBuilder drives it; none where T is all code numbers
(10_state.md R28, R32; 40_priority_queue.md R115; log 23). -/
def QueueParams.bound (q : QueueParams) : Option Nat := q.elems.map fun n => max n 512

/-- Whether an element register can hold a code number. -/
def QueueParams.fits (q : QueueParams) (e : Elem) : Bool :=
  match q.bound with
  | none => true
  | some n => decide (e < n)

/-- A code number cut to what an element register can hold. -/
def QueueParams.cut (q : QueueParams) (e : Elem) : Elem :=
  match q.bound with
  | none => e
  | some n => e % n

end Sys2Proof.Machine
end

