-- ==== Sys2Proof/Machine/Ops.lean ====
section
/-! DEFINITION. The shared operations: sequencing with errors, the stream primitives Need and Emit, the
free values a failed operation leaves, and taking an error: the abort sequence inside a command, the
operation's result outside one. -/

namespace Sys2Proof.Machine

/-- How an operation ends: completed, with an error raised (00_scope.md R15), or stopped where the
spec gives no effect. The state is the one reached at that point. -/
inductive Res where
  | done (s : State)
  | raise (e : Err) (s : State)
  | stop (f : Fault)
deriving DecidableEq, Repr

/-- "lines run in order" and no line runs after a raise (00_scope.md R13, R15). -/
def Res.bind (r : Res) (k : State → Res) : Res :=
  match r with
  | .done s => k s
  | .raise e s => .raise e s
  | .stop f => .stop f

/-- `for x in xs: body` (00_scope.md R16). -/
def forEach {α : Type} (body : α → State → Res) : List α → State → Res
  | [], s => .done s
  | x :: xs, s => (body x s).bind (forEach body xs)

/-- `MemRead(IBUF, a, n)`. -/
def State.ibufBytes (s : State) (a n : Nat) : List Byte := s.ibuf.readBytes .ibuf a n

/-- The bytes of the input that exist: IBUF[0 .. min(ILEN, IBUF_CAP)), which is IBUF[0 .. ILEN)
whenever ILEN is legal (20_memory.md R60). -/
def State.inputText (s : State) : List Byte :=
  s.ibufBytes 0 (min s.ilen.toNat s.params.ibufCap.toNat)

/-- Whether the input of length ILEN runs past the buffer's last byte. -/
def State.inputTooLong (s : State) : Bool := decide (s.params.ibufCap.toNat < s.ilen.toNat)

/-- `Need(n)` (20_memory.md R68): FormatError when fewer than `n` bytes remain, else the bytes, with
RPOS moved past them; `Need(0)` never fails. -/
def need (n : Nat) (s : State) (k : List Byte → State → Res) : Res :=
  if n = 0 then k [] s
  else if s.ilen.toNat < s.rpos + n then .raise .format s
  else if s.params.ibufCap.toNat < s.rpos + n then .stop .ibufAddress
  else k (s.ibufBytes s.rpos n) { s with rpos := s.rpos + n }

/-- `Need(1)[0]` (20_memory.md R68). -/
def needByte (s : State) (k : Byte → State → Res) : Res :=
  need 1 s fun bs t => k (bs.headD 0#8) t

/-- `Emit(B)` (20_memory.md R69): OutputOverflowError when the bytes do not fit OBUF, else they are
written at WPOS and WPOS moves past them. -/
def emit (bs : List Byte) (s : State) : Res :=
  if s.params.obufCap.toNat < s.wpos + bs.length then .raise .outputOverflow s
  else .done { s with obuf := s.obuf.writeBytes s.wpos bs, wpos := s.wpos + bs.length }

/-- OBUF unspecified from now on (10_state.md R38; 60_exceptions.md R222; log 5). -/
def State.spoilObuf (s : State) : State := { s with obuf := Mem.scrubbed s.fresh }

/-- REV and RN unspecified: at most 256 entries of at most 255 bits (10_state.md R34; log 5). -/
def State.spoilRev (s : State) : State :=
  { s with rev := ((Config.freeRev s.fresh).take 256).map fun e => { e with bits := e.bits.take 255 } }

/-- VBC, PLEN and PAYLOAD unspecified (log 5). -/
def State.spoilPayload (s : State) : State :=
  { s with
    vbc := Config.freeWord s.fresh 256
    plen := Config.freeWord s.fresh 257
    payload := Mem.scrubbed s.fresh }

/-- ACC unspecified: at most 2^32 - 1 bits (10_state.md R39; log 5). -/
def State.spoilAcc (s : State) : State :=
  { s with acc := (Config.freeBits s.fresh 256).take Config.maxBitCount }

/-- WPOS unspecified, 33 bits (log 5). -/
def State.spoilWpos (s : State) : State := { s with wpos := Config.freeNat s.fresh 4 % 2 ^ 33 }

/-- FREQ unspecified (log 5). -/
def State.spoilFreq (s : State) : State :=
  { s with freq := tableOf (Config.freeWord s.fresh) }

/-- ARENA, NNODES, ROOT, HEAP, SIZE and the queue's operand and result registers unspecified, within
their widths; PQ_ARGI has no stated width (log 5). -/
def State.spoilTree (s : State) : State :=
  { s with
    arena := (Config.freeNodes s.fresh).take 511
    root := Config.freeRoot s.fresh
    heap := ((Config.freeElems s.fresh).take s.params.queue.cap).map s.params.queue.cut
    pqArgv := s.params.queue.cut (Config.freeNat s.fresh 0)
    pqArgi := Config.freeNat s.fresh 1
    pqRes := s.params.queue.cut (Config.freeNat s.fresh 2) }

/-- CODE unspecified (log 5). -/
def State.spoilCode (s : State) : State :=
  { s with code := tableOf fun k => (Config.freeBits s.fresh k).take 255 }

/-- PK_BYTE and PK_CNT unspecified (log 5, log 16). -/
def State.spoilPacker (s : State) : State :=
  { s with pkByte := Config.freeByte s.fresh, pkCnt := Config.freeCnt s.fresh }

/-- RPOS and BITPOS unspecified, within their widths (log 5). -/
def State.spoilCursors (s : State) : State :=
  { s with
    rpos := Config.freeNat s.fresh 3 % 2 ^ 33
    bitpos := Config.freeNat s.fresh 5 % 2 ^ 40 }

/-- The next draw of free values (log 5). -/
def State.nextDraw (s : State) : State := { s with fresh := s.fresh + 1 }

/-- All working storage and hidden state of 10_state.md R28 to R36 and R39 to R41 unspecified (log 5). -/
def State.spoilStorage (s : State) : State :=
  s.spoilFreq.spoilTree.spoilCode.spoilRev.spoilPayload.spoilAcc.spoilWpos.spoilPacker
    |>.spoilCursors

/-- The writes of the abort sequence to the registers (60_exceptions.md R222): ERRINFO from the error,
PHASE and OP, then OLEN, PHASE, OP and the flags. -/
def State.reportError (e : Err) (s : State) : State :=
  { s with
    errinfo := errInfoWord e s.phase s.op
    olen := 0#32
    phase := .idle
    op := .idle
    err := true
    done := false
    busy := false }

/-- TAKING AN ERROR inside a command or at command issue: the abort sequence (60_exceptions.md R222).
OBUF is unspecified after it, and so is all working storage when an operation of the command had
started; an error at issue starts nothing (30_encoding.md R73, 95_test_vectors.md P6; log 6). -/
def abort (e : Err) (s : State) : State :=
  ((if s.busy then s.spoilStorage else s).spoilObuf.reportError e).nextDraw

/-- There is no return from an error and no resume (60_exceptions.md R224): after a command's last
operation the outcome is the state reached, after a raise the aborted state. -/
def commandOutcome (r : Res) : Host.Outcome State Fault Refusal :=
  match r with
  | .done s => .next s
  | .raise e s => .next (abort e s)
  | .stop f => .fault f

/-- The result of a component operation run stand-alone (60_exceptions.md R222): the error it ended
with, or none (log 7). -/
def State.setResult (s : State) (r : Option Err) : State := { s with unitErr := r }

/-- Ending a component operation run stand-alone: no STATUS, ERRINFO or OLEN is written; on an error
the operation's outputs are what `spoil` leaves of them (60_exceptions.md R222; log 7). -/
def unitOutcome (spoil : State → State) (r : Res) : Host.Outcome State Fault Refusal :=
  match r with
  | .done s => .next (s.setResult none)
  | .raise e s => .next ((spoil s).setResult (some e))
  | .stop f => .fault f

/-- The reset event, in any state (70_reset_and_hazards.md R240): the values of `State.resetWith`; the
instance and what the outside does next stay; buffer contents are unspecified anew. -/
def State.applyReset (s : State) : State :=
  { State.resetWith s.params with
    ibuf := Mem.scrubbed s.fresh
    obuf := Mem.scrubbed s.fresh
    payload := Mem.scrubbed s.fresh
    inputs := s.inputs
    fresh := s.fresh + 1 }

end Sys2Proof.Machine
end

