-- ==== Sys2Proof/Machine/BitPacker.lean ====
section
/-! DEFINITION. The BitPacker (43_bit_packer.md): BP.ENCODE and BP.DECODE. -/

namespace Sys2Proof.Machine

/-- One step of the first pass: the code's length is added, or the symbol is unknown
(43_bit_packer.md R150, R151). -/
def addLength (b : Byte) (s : State) : Res :=
  if tableGet s.code b = [] then .raise .unknownSymbol s
  else .done { s with bitpos := s.bitpos + (tableGet s.code b).length }

/-- One bit placed in the packer's partial byte, which is emptied when it is full (10_state.md R40;
log 16). -/
def packBit (v : Bool) (s : State) : State :=
  { s with
    pkByte := if s.pkCnt = 7#3 then 0#8 else setByteBit s.pkByte (7 - s.pkCnt.toNat) v
    pkCnt := s.pkCnt + 1#3 }

/-- `SetBit(PAYLOAD, BITPOS, v) ; BITPOS <- BITPOS + 1` (43_bit_packer.md R150). -/
def putBit (v : Bool) (s : State) : Res :=
  .done { packBit v s with
    payload := s.payload.setBit .payload s.bitpos v
    bitpos := s.bitpos + 1 }

/-- The bits of one symbol of the text (43_bit_packer.md R150). -/
def putCode (b : Byte) (s : State) : Res := forEach putBit (tableGet s.code b) s

/-- VBC, PLEN, the zeroed payload and the cleared bit position between the passes (43_bit_packer.md R150,
R152; 20_memory.md R55). -/
def startPayload (s : State) : State :=
  { s with
    vbc := BitVec.ofNat 32 s.bitpos
    plen := BitVec.ofNat 32 (ceilDiv8 s.bitpos)
    payload := s.payload.writeBytes 0 (List.replicate (ceilDiv8 s.bitpos) 0#8)
    bitpos := 0 }

/-- The state BP.ENCODE starts its first pass in: the bit count and the packer's partial byte cleared
(43_bit_packer.md R150; 10_state.md R40). That they are cleared here and not before the second pass is
the model's choice, which no result shows: where BP.ENCODE fails, both are free (log 16). -/
def startEncode (s : State) : State := { s with bitpos := 0, pkByte := 0#8, pkCnt := 0#3 }

/-- BP.ENCODE (43_bit_packer.md R150 to R153). The unknown-symbol test of every byte comes before the
bit-total test (60_exceptions.md R221). -/
def bpEncode (s : State) : Res :=
  (forEach addLength s.inputText (startEncode s)).bind fun s1 =>
    if s1.inputTooLong then .stop .ibufAddress
    else if Config.maxBitCount < s1.bitpos then .raise .outputOverflow s1
    else forEach putCode s1.inputText (startPayload s1)

/-- `Bit(PAYLOAD, i)` (20_memory.md R54); free where the payload has no byte `i / 8`
(43_bit_packer.md R163; log 15). -/
def payloadBit (draw : Nat) (s : State) (i : Nat) : Bool :=
  if i / 8 < s.plen.toNat then s.payload.bit .payload i else Config.strayBit draw i

/-- One iteration of the decoder: the next bit is appended to ACC, and on a match the symbol is emitted
and ACC cleared (43_bit_packer.md R154, R156). BITPOS is the index `i` (10_state.md R41). -/
def decodeBit (draw : Nat) (s : State) : Res :=
  let acc := s.acc ++ [payloadBit draw s s.bitpos]
  match revLookup s.rev acc with
  | none => .done { s with acc := acc, bitpos := s.bitpos + 1 }
  | some sym =>
    (emit [sym] { s with acc := acc }).bind fun t =>
      .done { t with acc := [], bitpos := t.bitpos + 1 }

/-- `for i in 0 .. VBC` (43_bit_packer.md R154, R155). -/
def decodeLoop (draw : Nat) : Nat → State → Res
  | 0, s => .done s
  | n + 1, s => (decodeBit draw s).bind (decodeLoop draw n)

/-- The state BP.DECODE starts its loop in: ACC, WPOS and the bit index cleared; a draw is used up
where the stream is longer than the payload (log 15). -/
def startDecode (s : State) : State :=
  { s with
    acc := []
    wpos := 0
    bitpos := 0
    fresh := if 8 * s.plen.toNat < s.vbc.toNat then s.fresh + 1 else s.fresh }

/-- BP.DECODE (43_bit_packer.md R154 to R163). -/
def bpDecode (s : State) : Res :=
  (decodeLoop s.fresh s.vbc.toNat (startDecode s)).bind fun t =>
    if t.acc = [] then .done t else .raise .incompleteData t

/-- BP.ENCODE. Where it fails, PAYLOAD, PLEN and VBC are free (60_exceptions.md R222; log 7), and so are
PK_BYTE and PK_CNT, of which the spec says nothing then (log 16). -/
def execBpEncode (s : State) : Host.Outcome State Fault Refusal :=
  unitOutcome (fun t => t.spoilPayload.spoilPacker.nextDraw) (bpEncode s)

/-- BP.DECODE. -/
def execBpDecode (s : State) : Host.Outcome State Fault Refusal :=
  unitOutcome (fun t => t.spoilObuf.spoilWpos.spoilAcc.nextDraw) (bpDecode s)

end Sys2Proof.Machine
end

