-- ==== Sys2Proof/Machine/CodeGenerator.lean ====
section
/-! DEFINITION. The CodeGenerator (42_code_generator.md): CG.GEN and CG.INVERT. -/

namespace Sys2Proof.Machine

/-- `label(k, path)` (42_code_generator.md R136): left appends 0, right appends 1, a Leaf records the
path. The first argument is the depth still allowed, so that no path exceeds 255 bits (R138); there
is no result where an index has no record or a path would be longer (log 13). -/
def label (arena : List Node) : Nat → NodeIdx → Bits → Table Bits → Option (Table Bits)
  | 0, _, _, _ => none
  | n + 1, k, path, code =>
    match arena[k.toNat]? with
    | none => none
    | some (.leaf sym _) => some (tableSet code sym path)
    | some (.internal _ l r) =>
      match label arena n l (path ++ [false]) code with
      | none => none
      | some code' => label arena n r (path ++ [true]) code'

/-- The CodeTable of a tree (42_code_generator.md R135): empty for None, the explicit code "0" for a
single leaf (R137), else the path labels. -/
def codesOf (arena : List Node) (root : Option NodeIdx) : Option (Table Bits) :=
  match root with
  | none => some (constTable [])
  | some r =>
    match arena[r.toNat]? with
    | some (.leaf sym _) => some (tableSet (constTable []) sym [false])
    | _ => label arena 256 r [] (constTable [])

/-- CG.GEN (42_code_generator.md R135). Where ARENA holds no tree the labelling has no result that the
spec states, and CG.GEN, which always ends (70_reset_and_hazards.md R255), leaves free codes (log 13). -/
def cgGen (s : State) : Res :=
  match codesOf s.arena s.root with
  | some code => .done { s with code := code }
  | none => .done s.spoilCode.nextDraw

/-- One step of the inversion (42_code_generator.md R141). -/
def invertEntry (x : Byte × Bits) (s : State) : Res :=
  if x.2 = [] then .done s
  else
    match revLookup s.rev x.2 with
    | some _ => .raise .duplicateCode s
    | none => .done { s with rev := s.rev ++ [{ bits := x.2, sym := x.1 }] }

/-- CG.INVERT (42_code_generator.md R141). -/
def cgInvert (s : State) : Res := forEach invertEntry (entries s.code) { s with rev := [] }

/-- CG.GEN. -/
def execCgGen (s : State) : Host.Outcome State Fault Refusal :=
  unitOutcome (fun t => t.spoilCode.nextDraw) (cgGen s)

/-- CG.INVERT. -/
def execCgInvert (s : State) : Host.Outcome State Fault Refusal :=
  unitOutcome (fun t => t.spoilRev.nextDraw) (cgInvert s)

end Sys2Proof.Machine
end

