-- ==== Sys2Proof/Machine/Container.lean ====
section
/-! DEFINITION. The ContainerFormat unit (44_container.md; layout 30_encoding.md R75 to R89): CF.WRITE
and CF.READ. -/

namespace Sys2Proof.Machine

/-- The byte of a code bit: ASCII '0' is 0x30, '1' is 0x31 (30_encoding.md R78). -/
def bitChar (v : Bool) : Byte := if v then 0x31#8 else 0x30#8

/-- The size of the CodeTable: the number of symbols with a code (10_state.md R33). -/
def codeCount (code : Table Bits) : Nat :=
  ((entries code).filter fun x => x.2 != []).length

/-- What is emitted for one symbol: nothing where it has no code, else symbol, codeLen and the code
bits, first bit first (44_container.md R165; 30_encoding.md R77, R78). -/
def entryFields (x : Byte × Bits) : List (List Byte) :=
  if x.2 = [] then []
  else [x.1] :: [BitVec.ofNat 8 x.2.length] :: x.2.map fun v => [bitChar v]

/-- The arguments of the successive Emits of CF.WRITE (44_container.md R165, R166). -/
def containerFields (code : Table Bits) (vbc : Word) (payload : List Byte) : List (List Byte) :=
  bytesU32 (codeCount code) :: (entries code).flatMap entryFields ++
    [bytesU32 vbc.toNat, payload]

/-- CF.WRITE (44_container.md R165 to R170). -/
def cfWrite (s : State) : Res :=
  forEach emit
    (containerFields s.code s.vbc (s.payload.readBytes .payload 0 s.plen.toNat))
    { s with wpos := 0 }

/-- Whether a byte is a code-bit character (30_encoding.md R85 (f)). -/
def isBitChar (b : Byte) : Bool := b == 0x30#8 || b == 0x31#8

/-- The code that `codeBits` spell (30_encoding.md R78). -/
def codeOfChars (bs : List Byte) : Bits := bs.map fun b => b == 0x31#8

/-- The checks of one entry after its bytes have been found present, in the order of 44_container.md
R177, and the append to REV (R171, R173). -/
def storeEntry (sym : Byte) (chars : List Byte) (s : State) : Res :=
  if chars.all isBitChar = false then .raise .format s
  else if revHasSym s.rev sym then .raise .format s
  else
    match revLookup s.rev (codeOfChars chars) with
    | some _ => .raise .format s
    | none => .done { s with rev := s.rev ++ [{ bits := codeOfChars chars, sym := sym }] }

/-- Step 2 for one entry (44_container.md R171, R173). -/
def readEntry (s : State) : Res :=
  needByte s fun sym s1 =>
    needByte s1 fun len s2 =>
      if len = 0#8 then .raise .format s2
      else need len.toNat s2 fun chars s3 => storeEntry sym chars s3

/-- `for e in 0 .. D` (44_container.md R171). -/
def readEntries : Nat → State → Res
  | 0, s => .done s
  | n + 1, s => (readEntry s).bind (readEntries n)

/-- Steps 3 and 4: `validBitCount` and the payload (44_container.md R174, R175). -/
def readPayload (s : State) : Res :=
  need 4 s fun v s1 =>
    need (ceilDiv8 (u32 v)) { s1 with
        vbc := BitVec.ofNat 32 (u32 v)
        plen := BitVec.ofNat 32 (ceilDiv8 (u32 v)) } fun p s2 =>
      .done { s2 with payload := s2.payload.writeBytes 0 p }

/-- Step 1, up to the reading of `dictSize` (44_container.md R171, R172). -/
def readHeader (s : State) : Res := need 4 { s with rpos := 0, rev := [] } fun _ t => .done t

/-- The `dictSize` that step 1 has read: the four bytes at offset 0 (44_container.md R172); no command
writes IBUF, so they are still there. -/
def dictSize (s : State) : Nat := u32 (s.ibufBytes 0 4)

/-- Steps 2 to 4 (44_container.md R171). -/
def readBody (s : State) : Res := (readEntries (dictSize s) s).bind readPayload

/-- CF.READ run stand-alone, where PHASE is not touched (44_container.md R171, R181). -/
def cfRead (s : State) : Res := (readHeader s).bind readBody

/-- CF.WRITE. -/
def execCfWrite (s : State) : Host.Outcome State Fault Refusal :=
  unitOutcome (fun t => t.spoilObuf.spoilWpos.nextDraw) (cfWrite s)

/-- CF.READ. -/
def execCfRead (s : State) : Host.Outcome State Fault Refusal :=
  unitOutcome (fun t => t.spoilRev.spoilPayload.nextDraw) (cfRead s)

end Sys2Proof.Machine
end

