-- ==== Sys2Proof/Machine/PriorityQueue.lean ====
section
/-! DEFINITION. The PriorityQueue unit (40_priority_queue.md): the two sift procedures over any `less`,
the four operations, and the meanings of PQ.INSERT, PQ.EXTRACTMIN, PQ.BUILD and PQ.DECREASEKEY. -/

namespace Sys2Proof.Machine

/-- `less(HEAP[i], HEAP[j])` with both indices below SIZE. -/
def lessAt (less : Elem → Elem → Bool) (h : List Elem) (i j : Nat) : Bool :=
  match h[i]?, h[j]? with
  | some a, some b => less a b
  | _, _ => false

/-- `(HEAP[i], HEAP[j]) <- (HEAP[j], HEAP[i])` (00_scope.md R13). -/
def swapAt (h : List Elem) (i j : Nat) : List Elem :=
  match h[i]?, h[j]? with
  | some a, some b => (h.set i b).set j a
  | _, _ => h

/-- The loop of `siftUp` (40_priority_queue.md R103); the first argument bounds its iterations, and
`i` iterations always suffice. -/
def siftUpLoop (less : Elem → Elem → Bool) : Nat → List Elem → Nat → List Elem
  | 0, h, _ => h
  | n + 1, h, i =>
    if 0 < i ∧ lessAt less h i ((i - 1) / 2) = true then
      siftUpLoop less n (swapAt h i ((i - 1) / 2)) ((i - 1) / 2)
    else h

/-- `siftUp(i)` (40_priority_queue.md R103). -/
def siftUp (less : Elem → Elem → Bool) (h : List Elem) (i : Nat) : List Elem :=
  siftUpLoop less i h i

/-- The index `m` of `siftDown`: the smaller child where it is less than the element at `i`, the left
one on a tie of the children, else `i` (40_priority_queue.md R104). -/
def smallest (less : Elem → Elem → Bool) (h : List Elem) (i : Nat) : Nat :=
  let m := if lessAt less h (2 * i + 1) i then 2 * i + 1 else i
  if lessAt less h (2 * i + 2) m then 2 * i + 2 else m

/-- The loop of `siftDown` (40_priority_queue.md R104); the first argument bounds its iterations, and
SIZE iterations always suffice. -/
def siftDownLoop (less : Elem → Elem → Bool) : Nat → List Elem → Nat → List Elem
  | 0, h, _ => h
  | n + 1, h, i =>
    if smallest less h i = i then h
    else siftDownLoop less n (swapAt h i (smallest less h i)) (smallest less h i)

/-- `siftDown(i)` (40_priority_queue.md R104). -/
def siftDown (less : Elem → Elem → Bool) (h : List Elem) (i : Nat) : List Elem :=
  siftDownLoop less h.length h i

/-- `for i downfrom k − 1 downto 0: siftDown(i)` (40_priority_queue.md R107). -/
def heapify (less : Elem → Elem → Bool) : Nat → List Elem → List Elem
  | 0, h => h
  | k + 1, h => heapify less k (siftDown less h k)

/-- HEAP after a completed PQ.INSERT of `v` (40_priority_queue.md R105). -/
def heapInsert (less : Elem → Elem → Bool) (h : List Elem) (v : Elem) : List Elem :=
  siftUp less (h ++ [v]) h.length

/-- HEAP after a completed PQ.EXTRACTMIN (40_priority_queue.md R106): the last element moves to the
root, unless it is the root, and is sifted down. -/
def heapExtract (less : Elem → Elem → Bool) (h : List Elem) : List Elem :=
  match h.dropLast, h.getLast? with
  | _ :: rest, some v => siftDown less (v :: rest) 0
  | _, _ => []

/-- HEAP after a completed PQ.BUILD (40_priority_queue.md R107). -/
def heapBuild (less : Elem → Elem → Bool) (items : List Elem) : List Elem :=
  heapify less (items.length / 2) items

/-- HEAP after a completed PQ.DECREASEKEY (40_priority_queue.md R108). -/
def heapDecrease (less : Elem → Elem → Bool) (h : List Elem) (i : Nat) (v : Elem) : List Elem :=
  siftUp less (h.set i v) i

/-- `less` of an instance, which for the TreeBuilder's reads ARENA (40_priority_queue.md R115). -/
def State.less (s : State) (q : QueueParams) : Elem → Elem → Bool := orderLess q.order s.arena

/-- PQ.INSERT on an instance (40_priority_queue.md R105). -/
def pqInsert (q : QueueParams) (s : State) : Res :=
  if s.heap.length = q.cap then .raise .overflow s
  else .done { s with heap := heapInsert (s.less q) s.heap s.pqArgv }

/-- PQ.EXTRACTMIN on an instance (40_priority_queue.md R106). -/
def pqExtractMin (q : QueueParams) (s : State) : Res :=
  match s.heap with
  | [] => .raise .empty s
  | r :: _ => .done { s with pqRes := r, heap := heapExtract (s.less q) s.heap }

/-- PQ.BUILD on an instance (40_priority_queue.md R107). -/
def pqBuild (q : QueueParams) (s : State) : Res :=
  if q.cap < s.pqItems.length then .raise .capacity s
  else .done { s with heap := heapBuild (s.less q) s.pqItems }

/-- PQ.DECREASEKEY on an instance, RangeError before OrderingError (40_priority_queue.md R108;
60_exceptions.md R221). -/
def pqDecreaseKey (q : QueueParams) (s : State) : Res :=
  match s.heap[s.pqArgi]? with
  | none => .raise .range s
  | some old =>
    if s.less q s.pqArgv old then
      .done { s with heap := heapDecrease (s.less q) s.heap s.pqArgi s.pqArgv }
    else .raise .ordering s

/-- A failing PQ operation changes nothing (40_priority_queue.md R109). -/
def spoilNothing (s : State) : State := s

/-- PQ.INSERT. -/
def execPqInsert (s : State) : Host.Outcome State Fault Refusal :=
  unitOutcome spoilNothing (pqInsert s.params.queue s)

/-- PQ.EXTRACTMIN. -/
def execPqExtractMin (s : State) : Host.Outcome State Fault Refusal :=
  unitOutcome spoilNothing (pqExtractMin s.params.queue s)

/-- PQ.BUILD. -/
def execPqBuild (s : State) : Host.Outcome State Fault Refusal :=
  unitOutcome spoilNothing (pqBuild s.params.queue s)

/-- PQ.DECREASEKEY. -/
def execPqDecreaseKey (s : State) : Host.Outcome State Fault Refusal :=
  unitOutcome spoilNothing (pqDecreaseKey s.params.queue s)

end Sys2Proof.Machine
end

