-- ==== Sys2Proof/Machine/TreeBuilder.lean ====
section
/-! DEFINITION. Frequency counting and the TreeBuilder (41_tree_builder.md): FC.COUNT and TB.BUILD. -/

namespace Sys2Proof.Machine

/-- One counting step, `FREQ[s] <- FREQ[s] + 1` (41_tree_builder.md R120). -/
def countByte (freq : Table Word) (b : Byte) : Table Word :=
  tableSet freq b (tableGet freq b + 1#32)

/-- The counts of a text, from all-zero counters (41_tree_builder.md R120). -/
def countText (text : List Byte) : Table Word :=
  text.foldl countByte (constTable 0#32)

/-- FC.COUNT (41_tree_builder.md R120). It raises nothing; it stops where ILEN runs past the buffer's
last byte, which command issue rules out (log 12). -/
def fcCount (s : State) : Res :=
  if s.inputTooLong then .stop .ibufAddress
  else .done { s with freq := countText s.inputText }

/-- `ARENA[NNODES] <- node ; PQ_ARGV <- NNODES ; PQ.INSERT ; NNODES <- NNODES + 1`
(41_tree_builder.md R123). -/
def addNode (n : Node) (s : State) : Res :=
  pqInsert Config.treeQueue { s with arena := s.arena ++ [n], pqArgv := s.arena.length }

/-- The leaf of one symbol with its count, if the symbol is in the table (41_tree_builder.md R122,
R124). -/
def addLeaf (x : Byte × Word) (s : State) : Res :=
  if x.2 = 0#32 then .done s else addNode (.leaf x.1 x.2) s

/-- One merge: the first node extracted becomes the left child, the second the right
(41_tree_builder.md R126, R127). -/
def mergeOnce (s : State) : Res :=
  (pqExtractMin Config.treeQueue s).bind fun s1 =>
    (pqExtractMin Config.treeQueue s1).bind fun s2 =>
      addNode
        (.internal (addFreq (nodeFreq s2.arena s1.pqRes) (nodeFreq s2.arena s2.pqRes))
          (BitVec.ofNat 9 s1.pqRes) (BitVec.ofNat 9 s2.pqRes)) s2

/-- `while SIZE > 1` merge (41_tree_builder.md R126); the first argument bounds the iterations, and
SIZE iterations always suffice since each lowers SIZE by one. -/
def mergeLoop : Nat → State → Res
  | 0, s => .done s
  | n + 1, s => if 1 < s.heap.length then (mergeOnce s).bind (mergeLoop n) else .done s

/-- `PQ.EXTRACTMIN ; ROOT <- Some(PQ_RES)` (41_tree_builder.md R128). -/
def takeRoot (s : State) : Res :=
  (pqExtractMin Config.treeQueue s).bind fun t =>
    .done { t with root := some (BitVec.ofNat 9 t.pqRes) }

/-- TB.BUILD (41_tree_builder.md R123 to R130). An error of the queue would be its own
(60_exceptions.md R225). -/
def tbBuild (s : State) : Res :=
  (forEach addLeaf (entries s.freq) { s with arena := [], heap := [] }).bind fun s1 =>
    if s1.arena.length = 0 then .done { s1 with root := none }
    else (mergeLoop s1.heap.length s1).bind takeRoot

/-- FC.COUNT. -/
def execFcCount (s : State) : Host.Outcome State Fault Refusal :=
  unitOutcome (fun t => t.spoilFreq.nextDraw) (fcCount s)

/-- TB.BUILD. -/
def execTbBuild (s : State) : Host.Outcome State Fault Refusal :=
  unitOutcome (fun t => t.spoilTree.nextDraw) (tbBuild s)

end Sys2Proof.Machine
end

