-- ==== Sys2Proof/Machine/TopLevel.lean ====
section
/-! DEFINITION. Command issue, the parts of the two chains of phases, the one step of a running command,
and the meanings of COMPRESS and DECOMPRESS (45_top_level.md). -/

namespace Sys2Proof.Machine

/-- The command a code written to CMD selects (30_encoding.md R72). -/
def commandOf (c : Byte) : Option TopOp :=
  if c = 0x01#8 then some .compress else if c = 0x02#8 then some .decompress else none

/-- Whether ILEN is legal for a command (45_top_level.md R186). -/
def lengthLegal (o : TopOp) (s : State) : Bool :=
  decide (s.ilen.toNat ≤ s.params.ibufCap.toNat) &&
    (o != .compress || decide (s.ilen.toNat ≤ Config.maxTextLen))

/-- Command issue with BUSY = 0, up to the start of the chain (45_top_level.md R186). -/
def issue (c : Byte) (s : State) : Res :=
  match commandOf c with
  | none => .raise .command s.clearReport
  | some o =>
    if lengthLegal o s then .done (s.clearReport.setOp o).setBusy
    else .raise .command (s.clearReport.setOp o)

/-- A completed operation is followed by its phase change (45_top_level.md R188, R190). -/
def thenPhase (p : Phase) (r : Res) : Res := r.bind fun s => .done (s.setPhase p)

/-- Idle to Counting (45_top_level.md R187). -/
def countPart (s : State) : Res := thenPhase .counting (fcCount s)

/-- Counting to TreeBuilt (45_top_level.md R187). -/
def treePart (s : State) : Res := thenPhase .treeBuilt (tbBuild s)

/-- TreeBuilt to CodesGenerated: both operations of the CodeGenerator (45_top_level.md R187). -/
def codePart (s : State) : Res := thenPhase .codesGenerated ((cgGen s).bind cgInvert)

/-- CodesGenerated to Packed (45_top_level.md R187). -/
def packPart (s : State) : Res := thenPhase .packed (bpEncode s)

/-- `OLEN <- WPOS` (45_top_level.md R187, R189). -/
def State.setOlen (s : State) : State := { s with olen := BitVec.ofNat 32 s.wpos }

/-- Packed to Written (45_top_level.md R187). -/
def writePart (s : State) : Res :=
  thenPhase .written ((cfWrite s).bind fun t => .done t.setOlen)

/-- Written to Idle (45_top_level.md R192). -/
def finishPart (s : State) : Res := .done s.complete

/-- Idle to HeaderParsed, inside CF.READ (45_top_level.md R190; 44_container.md R181). -/
def headerPart (s : State) : Res := thenPhase .headerParsed (readHeader s)

/-- HeaderParsed to TableLoaded, the rest of CF.READ (45_top_level.md R190). -/
def tablePart (s : State) : Res := thenPhase .tableLoaded (readBody s)

/-- TableLoaded to BitsWalked (45_top_level.md R189). -/
def bitsPart (s : State) : Res := thenPhase .bitsWalked (bpDecode s)

/-- BitsWalked to Written (45_top_level.md R189). -/
def lengthPart (s : State) : Res := .done (s.setOlen.setPhase .written)

/-- The part of a running command that its (OP, PHASE) names (10_state.md R22; 45_top_level.md R188,
R190). -/
def enginePart (s : State) : Res :=
  match s.op, s.phase with
  | .compress, .idle => countPart s
  | .compress, .counting => treePart s
  | .compress, .treeBuilt => codePart s
  | .compress, .codesGenerated => packPart s
  | .compress, .packed => writePart s
  | .compress, .written => finishPart s
  | .decompress, .idle => headerPart s
  | .decompress, .headerParsed => tablePart s
  | .decompress, .tableLoaded => bitsPart s
  | .decompress, .bitsWalked => lengthPart s
  | .decompress, .written => finishPart s
  | _, _ => .stop .noSuchPhase

/-- One turn of the engine: an idle engine does nothing, a running command advances by one part
(45_top_level.md R195). -/
def engineTurn (s : State) : Host.Outcome State Fault Refusal :=
  if s.busy then commandOutcome (enginePart s) else .next s

/-- The compress chain (45_top_level.md R187; 30_encoding.md R91). -/
def compressChain (s : State) : Res :=
  (((((countPart s).bind treePart).bind codePart).bind packPart).bind writePart).bind finishPart

/-- The decompress chain (45_top_level.md R189; 30_encoding.md R92). -/
def decompressChain (s : State) : Res :=
  ((((headerPart s).bind tablePart).bind bitsPart).bind lengthPart).bind finishPart

/-- COMPRESS as one step (45_top_level.md R187, R195): a write of 0x01 to CMD and the whole chain; while
BUSY = 1 the write is ignored (70_reset_and_hazards.md R245, 10_state.md R23). -/
def execCompress (s : State) : Host.Outcome State Fault Refusal :=
  if s.busy then .next s else commandOutcome ((issue 0x01#8 s).bind compressChain)

/-- DECOMPRESS as one step (45_top_level.md R189, R195); ignored while BUSY = 1. -/
def execDecompress (s : State) : Host.Outcome State Fault Refusal :=
  if s.busy then .next s else commandOutcome ((issue 0x02#8 s).bind decompressChain)

end Sys2Proof.Machine
end

