-- ==== Sys2Proof/Machine/Dispatch.lean ====
section
/-! DEFINITION. The meaning of every instruction, one arm per row of the opcode table. -/

namespace Sys2Proof.Machine

/-- One arm per constructor of `Instr`. -/
def exec (i : Instr) (s : State) : Host.Outcome State Fault Refusal :=
  match i with
  | .compress => Sys2Proof.Machine.execCompress s
  | .decompress => Sys2Proof.Machine.execDecompress s
  | .pqInsert => Sys2Proof.Machine.execPqInsert s
  | .pqExtractMin => Sys2Proof.Machine.execPqExtractMin s
  | .pqBuild => Sys2Proof.Machine.execPqBuild s
  | .pqDecreaseKey => Sys2Proof.Machine.execPqDecreaseKey s
  | .fcCount => Sys2Proof.Machine.execFcCount s
  | .tbBuild => Sys2Proof.Machine.execTbBuild s
  | .cgGen => Sys2Proof.Machine.execCgGen s
  | .cgInvert => Sys2Proof.Machine.execCgInvert s
  | .bpEncode => Sys2Proof.Machine.execBpEncode s
  | .bpDecode => Sys2Proof.Machine.execBpDecode s
  | .cfWrite => Sys2Proof.Machine.execCfWrite s
  | .cfRead => Sys2Proof.Machine.execCfRead s

end Sys2Proof.Machine
end

