-- ==== Sys2Proof/Machine/Sequencer.lean ====
section
/-! DEFINITION. What one step does with the next thing the outside does: the reset event, the host's
writes, a turn of the engine, an operation code, and the operands of the queue's interface (log 9). -/

namespace Sys2Proof.Machine

/-- An access that the outside makes only while BUSY = 0: with BUSY = 1 there is no such step
(92_eei_decisions.md D29; 20_memory.md R67; log 10). -/
def whileIdle (s : State) (o : Host.Outcome State Fault Refusal) :
    Host.Outcome State Fault Refusal :=
  if s.busy then .refused .accessWhileBusy else o

/-- Values presented at the queue's interface, whose registers hold elements of T: any other value
cannot stand there, and there is no such step (40_priority_queue.md R100; 10_state.md R28; log 23). -/
def ifElems (l : List Elem) (s : State) (o : Host.Outcome State Fault Refusal) :
    Host.Outcome State Fault Refusal :=
  if l.all s.params.queue.isElem then o else .refused .notAnElement

/-- The host writes `c` to CMD (10_state.md R23): the command is issued, or aborted at issue
(45_top_level.md R186), or with BUSY = 1 the write is ignored (70_reset_and_hazards.md R245). -/
def writeCmd (c : Byte) (s : State) : Host.Outcome State Fault Refusal :=
  if s.busy then .next s else commandOutcome (issue c s)

/-- The host writes a byte of IBUF (10_state.md R37; 20_memory.md R60). -/
def writeIbuf (a : Nat) (b : Byte) (s : State) : Host.Outcome State Fault Refusal :=
  if a < s.params.ibufCap.toNat then .next { s with ibuf := s.ibuf.write a b }
  else .fault .ibufAddress

/-- The host writes a byte of OBUF, which it owns while BUSY = 0 (20_memory.md R67). -/
def writeObuf (a : Nat) (b : Byte) (s : State) : Host.Outcome State Fault Refusal :=
  if a < s.params.obufCap.toNat then .next { s with obuf := s.obuf.write a b }
  else .fault .obufAddress

/-- An operation code presented to the block is decoded and its operation executed (30_encoding.md
R70 to R72); an unassigned code selects nothing (R73; log 20). -/
def operate (c : Byte) (s : State) : Host.Outcome State Fault Refusal :=
  match decode [c] with
  | .ok (i, _) => exec i s
  | .error r => .refused (.unassignedCode r)

/-- One input, already taken off the list. A poll stays in front of the list while BUSY = 1 and lets
the engine take a turn (70_reset_and_hazards.md R243). -/
def applyInput (x : Input) (s : State) : Host.Outcome State Fault Refusal :=
  match x with
  | .reset => .next s.applyReset
  | .writeCmd c => writeCmd c s
  | .writeIlen n => whileIdle s (.next { s with ilen := n })
  | .writeIbuf a b => whileIdle s (writeIbuf a b s)
  | .writeObuf a b => whileIdle s (writeObuf a b s)
  | .engine => engineTurn s
  | .poll => if s.busy then engineTurn { s with inputs := .poll :: s.inputs } else .next s
  | .operate c => whileIdle s (operate c s)
  | .setArgv v => whileIdle s (ifElems [v] s (.next { s with pqArgv := v }))
  | .setArgi i => whileIdle s (.next { s with pqArgi := i })
  | .setItems l => whileIdle s (ifElems l s (.next { s with pqItems := l }))

/-- One step: the next input where there is one, else a turn of the engine. -/
def advance (s : State) : Host.Outcome State Fault Refusal :=
  match s.inputs with
  | [] => engineTurn s
  | x :: rest => applyInput x { s with inputs := rest }

/-- The state in which the operation code `c` is the next thing the machine takes: the sequencer idle
and the code in front of the inputs (log 9). -/
def presentCode (c : Byte) (s : State) : State :=
  { s with busy := false, op := .idle, phase := .idle, inputs := .operate c :: s.inputs }

end Sys2Proof.Machine
end

