-- ==== Sys2Proof/Machine/Step.lean ====
section
/-! DEFINITION. The step function, and how a test places an instruction where the step takes it. -/

namespace Sys2Proof.Machine

/-- One step of the machine. -/
def step (s : State) : Host.Outcome State Fault Refusal := advance s

/-- `s` with the `nbits`-bit instruction whose bits are `w` presented as the next operation code: the
very next step runs it. It stands for the driver presenting the code (log 9). -/
def State.withFetchWord (s : State) (nbits w : Nat) : State :=
  presentCode (BitVec.ofNat 8 (w % 2 ^ nbits)) s

end Sys2Proof.Machine
end

