-- ==== Sys2Proof/Machine/HostPort.lean ====
section
/-! DEFINITION. What the host sees (10_state.md R23 to R27, R37, R38), as views of the state (log 11),
and the written lines of 30_encoding.md R90 as inputs. -/

namespace Sys2Proof.Machine

/-- A host read of register `n`: CMD reads 0, STATUS is always readable, ERRINFO, ILEN and OLEN only
while BUSY = 0 (20_memory.md R67); no value otherwise, nor for a number that names no register. -/
def hostReadReg (s : State) (n : Nat) : Option Word :=
  match n with
  | 0 => some 0#32
  | 1 => some (statusWord s)
  | 2 => if s.busy then none else some s.errinfo
  | 3 => if s.busy then none else some s.ilen
  | 4 => if s.busy then none else some s.olen
  | _ => none

/-- A host read of OBUF, which it owns while BUSY = 0 and may read freely (20_memory.md R67); no value
at an address that OBUF does not have, nor while BUSY = 1. -/
def hostReadObuf (s : State) (a : Nat) : Option Byte :=
  if s.busy then none
  else if a < s.params.obufCap.toNat then some (s.obuf.read .obuf a) else none

/-- Whether a byte of OBUF is valid output: only addresses below OLEN are, and only while BUSY = 0
(10_state.md R38). -/
def obufValid (s : State) (a : Nat) : Bool := !s.busy && decide (a < s.olen.toNat)

/-- A host read of IBUF while it owns it (20_memory.md R67). -/
def hostReadIbuf (s : State) (a : Nat) : Option Byte :=
  if s.busy then none
  else if a < s.params.ibufCap.toNat then some (s.ibuf.read .ibuf a) else none

/-- The output the host finds after a completed command: OBUF[0 .. OLEN) (45_top_level.md R185). -/
def hostOutput (s : State) : List Byte := s.obuf.readBytes .obuf 0 s.olen.toNat

/-- The bytes of IBUF from address `a`, as host writes. -/
def loadFrom (a : Nat) : List Byte → List Input
  | [] => []
  | b :: bs => .writeIbuf a b :: loadFrom (a + 1) bs

/-- What a written line makes the outside do (30_encoding.md R90): operands are presented before the
operation code; COMPRESS and DECOMPRESS are written to CMD and polled (70_reset_and_hazards.md R243);
a load writes the bytes and ILEN. -/
def lineInputs : Line → List Input
  | .insert v => [.setArgv v, .operate (encodeByte .pqInsert)]
  | .build items => [.setItems items, .operate (encodeByte .pqBuild)]
  | .decreaseKey i v => [.setArgi i, .setArgv v, .operate (encodeByte .pqDecreaseKey)]
  | .plain .compress => [.writeCmd (encodeByte .compress), .poll]
  | .plain .decompress => [.writeCmd (encodeByte .decompress), .poll]
  | .plain i => [.operate (encodeByte i)]
  | .load bytes => loadFrom 0 bytes ++ [.writeIlen (BitVec.ofNat 32 bytes.length)]

/-- A written program as inputs. -/
def programInputs (lines : List Line) : List Input := lines.flatMap lineInputs

end Sys2Proof.Machine
end

