-- ==== Sys2Proof/Safety.lean ====
section
/-! DEFINITION. The terms the claims are stated in: orders and heaps, code tables and their inverses, the
container as one byte sequence, the greedy decoder on a bit-string, what each operation writes, and the
invariants of the machine. -/

namespace Sys2Proof.Machine

/-- A strict weak order, which a strict total order is too (40_priority_queue.md R100). -/
structure StrictWeak (less : Elem → Elem → Bool) : Prop where
  irrefl : ∀ a, less a a = false
  trans : ∀ a b c, less a b = true → less b c = true → less a c = true
  cotrans : ∀ a b c, less a c = true → less a b = true ∨ less b c = true

/-- The heap invariant: no element is less than its parent (40_priority_queue.md R101). -/
def HeapOrdered (less : Elem → Elem → Bool) (h : List Elem) : Prop :=
  ∀ i a b, 0 < i → h[i]? = some a → h[(i - 1) / 2]? = some b → less a b = false

/-- The symbols in the frequency table with their counts, ascending (41_tree_builder.md R122). -/
def presentCounts (freq : Table Word) : List (Byte × Word) :=
  (entries freq).filter fun x => x.2 != 0#32

/-- The symbols that have a code, with their codes, ascending (10_state.md R33). -/
def presentCodes (code : Table Bits) : List (Byte × Bits) :=
  (entries code).filter fun x => x.2 != []

/-- "no code is a prefix of another distinct code" (42_code_generator.md R139 (c)). -/
def PrefixFree (code : Table Bits) : Prop :=
  ∀ a b, a ≠ b → tableGet code a ≠ [] → tableGet code b ≠ [] →
    ¬ tableGet code a <+: tableGet code b

/-- No two symbols have the same code. -/
def CodesDistinct (code : Table Bits) : Prop :=
  ∀ a b, a ≠ b → tableGet code a ≠ [] → tableGet code a ≠ tableGet code b

/-- Every code fits its 8-bit length field (10_state.md R33). -/
def CodesFit (code : Table Bits) : Prop := ∀ b, (tableGet code b).length ≤ 255

/-- The ReverseTable of a list of entries, in their order (44_container.md R171). -/
def revOf (es : List (Byte × Bits)) : List RevEntry :=
  es.map fun x => { bits := x.2, sym := x.1 }

/-- The ReverseTable that inverts a CodeTable, in ascending symbol order (42_code_generator.md R141). -/
def invertedTable (code : Table Bits) : List RevEntry := revOf (presentCodes code)

/-- "every code maps back to exactly the symbol that produced it" (42_code_generator.md R143). -/
def IsInverse (code : Table Bits) (rev : List RevEntry) : Prop :=
  ∀ c b, revLookup rev c = some b ↔ (c ≠ [] ∧ tableGet code b = c)

/-- The node a path leads to, 0 left and 1 right (42_code_generator.md R136). -/
def walk (arena : List Node) : NodeIdx → Bits → Option Node
  | k, [] => arena[k.toNat]?
  | k, v :: c =>
    match arena[k.toNat]? with
    | some (.internal _ l r) => walk arena (if v then r else l) c
    | _ => none

/-- The children of a node: none of a Leaf, two of an Internal (10_state.md R30). -/
def childrenOf : Node → List Nat
  | .leaf _ _ => []
  | .internal _ l r => [l.toNat, r.toNat]

/-- Every path from a node ends in a Leaf within the given number of records (41_tree_builder.md R131
(e)). -/
def endsWithin (arena : List Node) : Nat → NodeIdx → Bool
  | 0, _ => false
  | n + 1, k =>
    match arena[k.toNat]? with
    | some (.leaf _ _) => true
    | some (.internal _ l r) => endsWithin arena n l && endsWithin arena n r
    | none => false

/-- The concatenated codes of a text (30_encoding.md R83). -/
def textBits (code : Table Bits) (text : List Byte) : Bits := text.flatMap (tableGet code)

/-- The packed bit stream in PAYLOAD: bits 0 to VBC - 1 (43_bit_packer.md R154, R155). -/
def storedBits (s : State) : Bits := (List.range s.vbc.toNat).map (s.payload.bit .payload)

/-- The first `n` bits of packed bytes, most significant bit first (20_memory.md R51, R54). -/
def packedBits (bytes : List Byte) (n : Nat) : Bits :=
  (List.range n).map fun i => byteBit (bytes.getD (i / 8) 0#8) (7 - i % 8)

/-- The byte whose bits 7 down to 0 are `f 0` to `f 7` (20_memory.md R51). -/
def byteOfBits (f : Nat → Bool) : Byte :=
  BitVec.ofNat 8 ((List.range 8).map fun k => if f k then 2 ^ (7 - k) else 0).sum

/-- A bit-string packed into bytes, most significant bit first, the last byte filled with zeros
(20_memory.md R51, R55; 30_encoding.md R83). -/
def packBits (bits : Bits) : List Byte :=
  (List.range (ceilDiv8 bits.length)).map fun j => byteOfBits fun k => bits.getD (8 * j + k) false

/-- The greedy decoder on a bit-string, from a running buffer: the symbols emitted and the buffer left
(43_bit_packer.md R154, R156). -/
def greedy (rev : List RevEntry) : Bits → Bits → List Byte × Bits
  | acc, [] => ([], acc)
  | acc, v :: bs =>
    match revLookup rev (acc ++ [v]) with
    | some y => (y :: (greedy rev [] bs).1, (greedy rev [] bs).2)
    | none => greedy rev (acc ++ [v]) bs

/-- One entry of the container (30_encoding.md R77, R78). -/
def entryBytes (x : Byte × Bits) : List Byte :=
  x.1 :: BitVec.ofNat 8 x.2.length :: x.2.map bitChar

/-- Entries that a reader accepts, in any order: symbols distinct, codes distinct, each code of 1 to 255
bits (30_encoding.md R81, R85 (e), (g), (h)). -/
def GoodEntries (es : List (Byte × Bits)) : Prop :=
  (es.map Prod.fst).Nodup ∧ (es.map Prod.snd).Nodup ∧ ∀ x ∈ es, x.2 ≠ [] ∧ x.2.length ≤ 255

/-- The bytes of an entry that a reader refuses after the entries `es`: codeLen 0, a codeBits byte that
is no code-bit character, a symbol or a code that an earlier entry has (30_encoding.md R85 (e) to
(h)). -/
def BadEntry (es : List (Byte × Bits)) (bad : List Byte) : Prop :=
  (∃ sym, bad = [sym, 0#8]) ∨
  (∃ sym len chars, bad = sym :: len :: chars ∧ chars.length = len.toNat ∧
    ∃ x ∈ chars, x ≠ 0x30#8 ∧ x ≠ 0x31#8) ∨
  (∃ sym c, bad = entryBytes (sym, c) ∧ c ≠ [] ∧ c.length ≤ 255 ∧
    ∃ e ∈ es, e.1 = sym ∨ e.2 = c)

/-- A container, its entries in any order, with whatever follows it: dictSize, entries, validBitCount and
a payload of ceil(validBitCount / 8) bytes (30_encoding.md R75 to R81, R87). -/
def IsContainer (input : List Byte) (es : List (Byte × Bits)) (vbc : Word) (payload : List Byte) :
    Prop :=
  GoodEntries es ∧ payload.length = ceilDiv8 vbc.toNat ∧
    ∃ rest, input =
      bytesU32 es.length ++ es.flatMap entryBytes ++ bytesU32 vbc.toNat ++ payload ++ rest

/-- The input ends inside an entry: no symbol or no codeLen is left, or fewer code bytes than codeLen
(30_encoding.md R85 (b), (c)). -/
def CutEntry (tail : List Byte) : Prop :=
  tail.length < 2 ∨
    ∃ sym len chars, tail = sym :: len :: chars ∧ chars.length < BitVec.toNat (w := 8) len

/-- The input ends after the entries inside validBitCount or inside the payload (30_encoding.md R85 (a),
(d)). -/
def CutTail (tail : List Byte) : Prop :=
  tail.length < 4 ∨ ∃ vbc payload, vbc < 2 ^ 32 ∧ tail = bytesU32 vbc ++ payload ∧
    payload.length < ceilDiv8 vbc

/-- The container as one byte sequence: dictSize, entries, validBitCount, payload (30_encoding.md R75
to R81). -/
def containerBytes (code : Table Bits) (vbc : Word) (payload : List Byte) : List Byte :=
  bytesU32 (presentCodes code).length ++ (presentCodes code).flatMap entryBytes ++
    bytesU32 vbc.toNat ++ payload

/-- The container of a text under a code table (30_encoding.md R75 to R83). -/
def containerOfText (code : Table Bits) (text : List Byte) : List Byte :=
  containerBytes code (BitVec.ofNat 32 (textBits code text).length) (packBits (textBits code text))

/-- The container that CF.WRITE makes of a state (44_container.md R165). -/
def containerOf (s : State) : List Byte :=
  containerBytes s.code s.vbc (s.payload.readBytes .payload 0 s.plen.toNat)

/-- Every byte of OBUF at or beyond WPOS is as before: `Emit` writes from address 0 to WPOS. -/
def ObufKeptBeyond (s t : State) : Prop :=
  ∀ a, t.wpos ≤ a → t.obuf.read .obuf a = s.obuf.read .obuf a

/-- Every byte of PAYLOAD at or beyond PLEN is as before: the payload is written from address 0 to
PLEN. -/
def PayloadKeptBeyond (s t : State) : Prop :=
  ∀ a, t.plen.toNat ≤ a → t.payload.read .payload a = s.payload.read .payload a

/-- The second state is the first with at most the operation's results written: its row of
30_encoding.md R74, the cursors and hidden registers that its pseudocode uses, and the model's own
`unitErr` and `fresh`. Every other register, table and byte is as before. A command that completes
has also written what the operations of its chain write; one that fails leaves unspecified what
60_exceptions.md R222 says, and so does a failed operation with its outputs. -/
def WritesOnlyItsOutputs (i : Instr) (s t : State) : Prop :=
  match i with
  | .compress =>
    t = { t with params := s.params, ibuf := s.ibuf, ilen := s.ilen, pqItems := s.pqItems,
                 unitErr := s.unitErr, inputs := s.inputs } ∧
      (t.err = false →
        t = { s with
          op := t.op, phase := t.phase, busy := t.busy, done := t.done, err := t.err,
          errinfo := t.errinfo, olen := t.olen, obuf := t.obuf, wpos := t.wpos, freq := t.freq,
          arena := t.arena, root := t.root, heap := t.heap, pqArgv := t.pqArgv,
          pqRes := t.pqRes, code := t.code, rev := t.rev, payload := t.payload,
          plen := t.plen, vbc := t.vbc, bitpos := t.bitpos, pkByte := t.pkByte,
          pkCnt := t.pkCnt } ∧
        ObufKeptBeyond s t ∧ PayloadKeptBeyond s t)
  | .decompress =>
    t = { t with params := s.params, ibuf := s.ibuf, ilen := s.ilen, pqItems := s.pqItems,
                 unitErr := s.unitErr, inputs := s.inputs } ∧
      (t.err = false →
        t = { s with
          op := t.op, phase := t.phase, busy := t.busy, done := t.done, err := t.err,
          errinfo := t.errinfo, olen := t.olen, obuf := t.obuf, wpos := t.wpos, rev := t.rev,
          payload := t.payload, plen := t.plen, vbc := t.vbc, rpos := t.rpos, acc := t.acc,
          bitpos := t.bitpos } ∧
        ObufKeptBeyond s t ∧ PayloadKeptBeyond s t)
  | .pqInsert => t = { s with heap := t.heap, unitErr := t.unitErr }
  | .pqExtractMin => t = { s with heap := t.heap, pqRes := t.pqRes, unitErr := t.unitErr }
  | .pqBuild => t = { s with heap := t.heap, unitErr := t.unitErr }
  | .pqDecreaseKey => t = { s with heap := t.heap, unitErr := t.unitErr }
  | .fcCount => t = { s with freq := t.freq, unitErr := t.unitErr }
  | .tbBuild =>
    t = { s with arena := t.arena, root := t.root, heap := t.heap, pqArgv := t.pqArgv,
                 pqRes := t.pqRes, unitErr := t.unitErr }
  | .cgGen => t = { s with code := t.code, unitErr := t.unitErr, fresh := t.fresh }
  | .cgInvert => t = { s with rev := t.rev, unitErr := t.unitErr, fresh := t.fresh }
  | .bpEncode =>
    t = { s with payload := t.payload, plen := t.plen, vbc := t.vbc, bitpos := t.bitpos,
                 pkByte := t.pkByte, pkCnt := t.pkCnt, unitErr := t.unitErr, fresh := t.fresh } ∧
      (t.unitErr = none → PayloadKeptBeyond s t)
  | .bpDecode =>
    t = { s with obuf := t.obuf, wpos := t.wpos, acc := t.acc, bitpos := t.bitpos,
                 unitErr := t.unitErr, fresh := t.fresh } ∧
      (t.unitErr = none → ObufKeptBeyond s t)
  | .cfWrite =>
    t = { s with obuf := t.obuf, wpos := t.wpos, unitErr := t.unitErr, fresh := t.fresh } ∧
      (t.unitErr = none → ObufKeptBeyond s t)
  | .cfRead =>
    t = { s with rev := t.rev, vbc := t.vbc, payload := t.payload, plen := t.plen,
                 rpos := t.rpos, unitErr := t.unitErr, fresh := t.fresh } ∧
      (t.unitErr = none → PayloadKeptBeyond s t)

/-- The twelve component operations (00_scope.md R19). -/
def isComponent (i : Instr) : Bool := i != .compress && i != .decompress

/-- The four operations of the PriorityQueue unit. -/
def isQueueOp (i : Instr) : Bool :=
  i == .pqInsert || i == .pqExtractMin || i == .pqBuild || i == .pqDecreaseKey

/-- The three buffers are in canonical form (log 4). -/
def BuffersCanonical (s : State) : Prop := s.ibuf.wf ∧ s.obuf.wf ∧ s.payload.wf

/-- Every byte ever listed in IBUF or OBUF has an address the buffer has (20_memory.md R50, R60). -/
def BuffersInBounds (s : State) : Prop :=
  (∀ c ∈ s.ibuf.cells, c.1 < s.params.ibufCap.toNat) ∧
    (∀ c ∈ s.obuf.cells, c.1 < s.params.obufCap.toNat)

/-- The pairs (OP, PHASE) of a running command (10_state.md R22; 45_top_level.md R188, R190). -/
def runningPair (o : TopOp) (p : Phase) : Bool :=
  match o with
  | .idle => false
  | .compress =>
    p == .idle || p == .counting || p == .treeBuilt || p == .codesGenerated || p == .packed ||
      p == .written
  | .decompress =>
    p == .idle || p == .headerParsed || p == .tableLoaded || p == .bitsWalked || p == .written

/-- What holds of the sequencer and the host registers at all times (10_state.md R22, R24, R25, R45 (g),
(h); 45_top_level.md R186; 60_exceptions.md R222). -/
structure SequencerOk (s : State) : Prop where
  /-- At most one of BUSY, DONE, ERR is 1. -/
  oneFlag : (s.busy && s.done || s.busy && s.err || s.done && s.err) = false
  /-- No command running: OP and PHASE are idle. -/
  idle : s.busy = false → s.op = .idle ∧ s.phase = .idle
  /-- A command running: OP and PHASE are a pair of its chain. -/
  running : s.busy = true → runningPair s.op s.phase = true
  /-- A running command has passed the length check of its issue. -/
  legal : s.busy = true → lengthLegal s.op s = true
  /-- ERRINFO is nonzero only with ERR. -/
  report : s.err = false → s.errinfo = 0#32
  /-- The reserved bits of ERRINFO are 0. -/
  reserved : s.errinfo.extractLsb' 14 18 = 0#18
  /-- After an error OLEN is 0. -/
  noOutput : s.err = true → s.olen = 0#32
  /-- OLEN never exceeds OBUF_CAP. -/
  fits : s.olen.toNat ≤ s.params.obufCap.toNat
  /-- Once the bits are walked, WPOS is a length that fits OBUF. -/
  walked : s.phase = .bitsWalked → s.wpos ≤ s.params.obufCap.toNat

/-- Every counter, cursor, table and element register is within its width (10_state.md R28, R31 to R34,
R39, R41, R45 (a), (b); 40_priority_queue.md R115). -/
structure WidthsOk (s : State) : Prop where
  /-- SIZE ≤ CAP. -/
  size : s.heap.length ≤ s.params.queue.cap
  /-- NNODES ≤ 511. -/
  nodes : s.arena.length ≤ 511
  /-- RN ≤ 256. -/
  rev : s.rev.length ≤ 256
  /-- `codeLen` and REV's `len` are bytes. -/
  codes : CodesFit s.code
  revBits : ∀ e ∈ s.rev, e.bits.length ≤ 255
  /-- ACC has at most 2^32 - 1 bits. -/
  acc : s.acc.length ≤ Config.maxBitCount
  /-- RPOS and WPOS have 33 bits, BITPOS 40. -/
  rpos : s.rpos < 2 ^ 33
  wpos : s.wpos < 2 ^ 33
  bitpos : s.bitpos < 2 ^ 40
  /-- PQ_ARGV, PQ_RES, the item port and HEAP hold what fits an element register. -/
  argv : s.params.queue.fits s.pqArgv = true
  res : s.params.queue.fits s.pqRes = true
  items : ∀ e ∈ s.pqItems, s.params.queue.fits e = true
  elems : ∀ e ∈ s.heap, s.params.queue.fits e = true
  /-- Between the two parts of CF.READ no entry has been stored (44_container.md R171). -/
  header : s.phase = .headerParsed → s.rev = []

end Sys2Proof.Machine
end

