-- ==== Sys2Proof/Certificates/Slice0/Obligations.lean ====
section
/-! DEFINITION. The statements for the provers. In a completion statement the equation for the next
state says at once what the operation writes and that nothing else changes. -/

open Sys2Proof Sys2Proof.Machine

/-! ### Encoding, reset and stepping -/

/-- R71: every command code of the table selects its operation, and nothing else is assigned. -/
def Obligations.EveryTableCodeSelectsItsOperation : Prop :=
  decodeByte 0x01#8 = .ok .compress ∧ decodeByte 0x02#8 = .ok .decompress ∧
  decodeByte 0x10#8 = .ok .pqInsert ∧ decodeByte 0x11#8 = .ok .pqExtractMin ∧
  decodeByte 0x12#8 = .ok .pqBuild ∧ decodeByte 0x13#8 = .ok .pqDecreaseKey ∧
  decodeByte 0x20#8 = .ok .fcCount ∧ decodeByte 0x21#8 = .ok .tbBuild ∧
  decodeByte 0x30#8 = .ok .cgGen ∧ decodeByte 0x31#8 = .ok .cgInvert ∧
  decodeByte 0x40#8 = .ok .bpEncode ∧ decodeByte 0x41#8 = .ok .bpDecode ∧
  decodeByte 0x50#8 = .ok .cfWrite ∧ decodeByte 0x51#8 = .ok .cfRead ∧
  ∀ c i, decodeByte c = .ok i →
    c ∈ [0x01#8, 0x02#8, 0x10#8, 0x11#8, 0x12#8, 0x13#8, 0x20#8, 0x21#8, 0x30#8, 0x31#8, 0x40#8,
      0x41#8, 0x50#8, 0x51#8]

/-- R70, R71, R73: decoding an encoded operation gives it back with the bytes that follow, and a byte
that decodes at all is the code of the operation it decodes to, so that every other byte is
unassigned. -/
def Obligations.DecodeAndEncodeAgree : Prop :=
  (∀ i rest, i.wellFormed = true → decode (encode i ++ rest) = .ok (i, rest)) ∧
  (∀ c i, decodeByte c = .ok i → encodeByte i = c)

/-- R240, R43: the reset event, in any state and also while a command runs, leaves the values that R43
gives, and so does the state after reset of every instance. The instance and what the outside does
next are the model's own fields and stay. -/
def Obligations.ResetInAnyStateLeavesTheResetValues : Prop :=
  (∀ (s : State) rest, s.inputs = .reset :: rest →
    ∃ t, step s = .next t ∧ t.op = .idle ∧ t.phase = .idle ∧ statusWord t = 0#32 ∧
      t.errinfo = 0#32 ∧ t.ilen = 0#32 ∧ t.olen = 0#32 ∧ t.size = 0 ∧
      t.params = s.params ∧ t.inputs = rest) ∧
  ∀ p, (State.resetWith p).op = .idle ∧ (State.resetWith p).phase = .idle ∧
    statusWord (State.resetWith p) = 0#32 ∧ (State.resetWith p).errinfo = 0#32 ∧
    (State.resetWith p).ilen = 0#32 ∧ (State.resetWith p).olen = 0#32 ∧
    (State.resetWith p).size = 0 ∧ (State.resetWith p).params = p

/-- R70, R72: a presented code that decodes to an operation is executed as that operation, after it is
taken off the inputs; this is how a run reaches the statements about `exec`. -/
def Obligations.StepRunsTheDecodedInstruction : Prop :=
  ∀ (s : State) c rest i, s.busy = false → s.inputs = .operate c :: rest → decode [c] = .ok (i, []) →
    i.wellFormed = true → step s = exec i { s with inputs := rest }

/-- R186, R23: a legal command written to CMD is issued: DONE, ERR, ERRINFO and OLEN cleared, OP set,
BUSY set, and nothing else changes. -/
def Obligations.WritingALegalCommandIssuesIt : Prop :=
  ∀ (s : State) c o rest, s.busy = false → s.inputs = .writeCmd c :: rest → commandOf c = some o →
    s.ilen.toNat ≤ s.params.ibufCap.toNat →
    (o = .compress → s.ilen.toNat ≤ Config.maxTextLen) →
    step s = .next { s with inputs := rest, done := false, err := false, errinfo := 0#32,
                            olen := 0#32, op := o, busy := true }

/-- R186, R215, R73: a code other than 0x01 and 0x02 written to CMD raises CommandError with EOP = 0
and starts nothing: the working storage, HEAP and SIZE among it, and the inputs are untouched. What
OBUF holds after it is free. -/
def Obligations.WritingAnIllegalCodeRaisesCommandError : Prop :=
  ∀ (s : State) c rest, s.busy = false → SequencerOk s → s.inputs = .writeCmd c :: rest → c ≠ 0x01#8 →
    c ≠ 0x02#8 →
    ∃ t, step s = .next t ∧ statusWord t = 0x4#32 ∧ t.errinfo = 0x0F#32 ∧ t.olen = 0#32 ∧
      t = { s with inputs := rest, done := false, err := true, errinfo := t.errinfo,
                   olen := 0#32, obuf := t.obuf, fresh := t.fresh }

/-- R186, R215: a length above its limit raises CommandError with EOP the command's OP and EPHASE Idle,
for both commands. -/
def Obligations.AnIllegalLengthRaisesCommandError : Prop :=
  ∀ (s : State) c o rest, s.busy = false → SequencerOk s → s.inputs = .writeCmd c :: rest →
    commandOf c = some o →
    (s.params.ibufCap.toNat < s.ilen.toNat ∨
      (o = .compress ∧ Config.maxTextLen < s.ilen.toNat)) →
    ∃ t, step s = .next t ∧ statusWord t = 0x4#32 ∧ t.olen = 0#32 ∧
      errInfoCode t.errinfo = 15#8 ∧ errInfoPhase t.errinfo = 0#4 ∧
      errInfoOp t.errinfo = topOpCode o ∧ t.ibuf = s.ibuf ∧ t.ilen = s.ilen ∧ t.heap = s.heap

/-- R245, R23: a write to CMD while BUSY = 1 has no effect. -/
def Obligations.AWriteToCmdWhileBusyIsIgnored : Prop :=
  ∀ (s : State) c rest, s.busy = true → s.inputs = .writeCmd c :: rest →
    step s = .next { s with inputs := rest }

/-- The model's choice (log 10, on R67, R245 and D29): any other access than a CMD write, a reset or
a turn of the engine has no step while BUSY = 1. While BUSY = 0 (R26, R28, R37, R67) each takes effect:
a write of ILEN or of the queue's operands sets that register alone, a write of a byte of IBUF or
OBUF sets that byte alone, and an address or a value that does not exist has no step (log 12,
log 23). And R23 to R27, R38: what the host reads. -/
def Obligations.OtherAccessesWhileBusyAreRefused : Prop :=
  (∀ (s : State) rest a b n v i l c, s.busy = true →
    step { s with inputs := .writeIlen n :: rest } = .refused .accessWhileBusy ∧
    step { s with inputs := .writeIbuf a b :: rest } = .refused .accessWhileBusy ∧
    step { s with inputs := .writeObuf a b :: rest } = .refused .accessWhileBusy ∧
    step { s with inputs := .operate c :: rest } = .refused .accessWhileBusy ∧
    step { s with inputs := .setArgv v :: rest } = .refused .accessWhileBusy ∧
    step { s with inputs := .setArgi i :: rest } = .refused .accessWhileBusy ∧
    step { s with inputs := .setItems l :: rest } = .refused .accessWhileBusy) ∧
  (∀ (s : State) rest, s.busy = false →
    (∀ n, step { s with inputs := .writeIlen n :: rest } =
      .next { s with inputs := rest, ilen := n }) ∧
    (∀ a b, a < s.params.ibufCap.toNat →
      ∃ t, step { s with inputs := .writeIbuf a b :: rest } = .next t ∧
        t = { s with inputs := rest, ibuf := t.ibuf } ∧
        ∀ x, t.ibuf.read .ibuf x = if x = a then b else s.ibuf.read .ibuf x) ∧
    (∀ a b, s.params.ibufCap.toNat ≤ a →
      step { s with inputs := .writeIbuf a b :: rest } = .fault .ibufAddress) ∧
    (∀ a b, a < s.params.obufCap.toNat →
      ∃ t, step { s with inputs := .writeObuf a b :: rest } = .next t ∧
        t = { s with inputs := rest, obuf := t.obuf } ∧
        ∀ x, t.obuf.read .obuf x = if x = a then b else s.obuf.read .obuf x) ∧
    (∀ a b, s.params.obufCap.toNat ≤ a →
      step { s with inputs := .writeObuf a b :: rest } = .fault .obufAddress) ∧
    (∀ v, step { s with inputs := .setArgv v :: rest } =
      if s.params.queue.isElem v then .next { s with inputs := rest, pqArgv := v }
      else .refused .notAnElement) ∧
    (∀ i, step { s with inputs := .setArgi i :: rest } =
      .next { s with inputs := rest, pqArgi := i }) ∧
    (∀ l, step { s with inputs := .setItems l :: rest } =
      if l.all s.params.queue.isElem then .next { s with inputs := rest, pqItems := l }
      else .refused .notAnElement)) ∧
  (∀ (s : State), hostReadReg s 0 = some 0#32 ∧ hostReadReg s 1 = some (statusWord s)) ∧
  ∀ (s : State), s.busy = false →
    hostReadReg s 2 = some s.errinfo ∧ hostReadReg s 3 = some s.ilen ∧
    hostReadReg s 4 = some s.olen ∧
    (∀ a, a < s.params.ibufCap.toNat → hostReadIbuf s a = some (s.ibuf.read .ibuf a)) ∧
    (∀ a, a < s.params.obufCap.toNat → hostReadObuf s a = some (s.obuf.read .obuf a)) ∧
    ∀ a, obufValid s a = decide (a < s.olen.toNat)

/-- R195: the finest and the coarsest step agree. Writing the command to CMD and letting the engine take
its turns gives, after seven steps for COMPRESS and six for DECOMPRESS, exactly the outcome of the
command executed as one step. -/
def Obligations.FineAndCoarseStepsAgree : Prop :=
  ∀ (s : State), s.busy = false → s.phase = .idle →
    Host.Core.run core 7 { s with inputs := [.writeCmd 0x01#8] } =
        exec .compress { s with inputs := [] } ∧
      Host.Core.run core 6 { s with inputs := [.writeCmd 0x02#8] } =
        exec .decompress { s with inputs := [] }

/-! ### Host registers, errors and completion -/

/-- R24, R22: the fields of the STATUS word, and the numbers of OP and PHASE. -/
def Obligations.StatusWordHasTheStatedFields : Prop :=
  (topOpCode .idle = 0#2 ∧ topOpCode .compress = 1#2 ∧ topOpCode .decompress = 2#2) ∧
  (phaseCode .idle = 0#4 ∧ phaseCode .counting = 1#4 ∧ phaseCode .treeBuilt = 2#4 ∧
    phaseCode .codesGenerated = 3#4 ∧ phaseCode .packed = 4#4 ∧ phaseCode .written = 5#4 ∧
    phaseCode .headerParsed = 8#4 ∧ phaseCode .tableLoaded = 9#4 ∧ phaseCode .bitsWalked = 10#4) ∧
  ∀ (s : State), (statusWord s).getLsbD 0 = s.busy ∧ (statusWord s).getLsbD 1 = s.done ∧
    (statusWord s).getLsbD 2 = s.err ∧ (statusWord s).getLsbD 3 = false ∧
    (statusWord s).extractLsb' 4 4 = phaseCode s.phase ∧
    (statusWord s).extractLsb' 8 2 = topOpCode s.op ∧ (statusWord s).extractLsb' 10 22 = 0#22

/-- R222, R223: the abort sequence, for every error and every state: what it writes to ERRINFO, OLEN,
PHASE, OP and STATUS; IBUF and ILEN, and the model's own instance and inputs, are unchanged. And R205:
the numbers of the errors. -/
def Obligations.AbortRecordsTheErrorAndReturnsToIdle : Prop :=
  (errCode .overflow = 1#8 ∧ errCode .empty = 2#8 ∧ errCode .capacity = 3#8 ∧
    errCode .range = 4#8 ∧ errCode .ordering = 5#8 ∧ errCode .format = 6#8 ∧
    errCode .incompleteData = 7#8 ∧ errCode .unknownSymbol = 8#8 ∧ errCode .duplicateCode = 9#8 ∧
    errCode .outputOverflow = 14#8 ∧ errCode .command = 15#8) ∧
  ∀ e (s : State), errInfoCode (abort e s).errinfo = errCode e ∧
    errInfoPhase (abort e s).errinfo = phaseCode s.phase ∧
    errInfoOp (abort e s).errinfo = topOpCode s.op ∧
    (abort e s).errinfo.extractLsb' 14 18 = 0#18 ∧ (abort e s).olen = 0#32 ∧
    (abort e s).phase = .idle ∧ (abort e s).op = .idle ∧ (abort e s).err = true ∧
    (abort e s).done = false ∧ (abort e s).busy = false ∧
    (abort e s).ibuf = s.ibuf ∧ (abort e s).ilen = s.ilen ∧
    (abort e s).params = s.params ∧ (abort e s).inputs = s.inputs

/-- R192: `complete` of a written command, as one turn of the engine that changes nothing else. -/
def Obligations.CompletionSetsDoneAndReturnsToIdle : Prop :=
  ∀ (s : State), s.busy = true → s.op ≠ .idle → s.phase = .written →
    engineTurn s = .next { s with phase := .idle, op := .idle, done := true, busy := false }

/-- R24, R25, R22, R45 (g), (h), R186: the relations among OP, PHASE, the flags, ERRINFO, OLEN and the
legal length are kept by every step. -/
def Obligations.SequencerStaysConsistent : Prop :=
  ∀ (s t : State), SequencerOk s → step s = .next t → SequencerOk t

/-- R28, R31 to R34, R39, R41, R45 (a), (b), R115: every counter, cursor, table and element register stays
within its width. -/
def Obligations.WidthsStayRespected : Prop :=
  ∀ (s t : State), SequencerOk s → WidthsOk s → step s = .next t → WidthsOk t

/-- Log 4: the three buffers stay in canonical form. -/
def Obligations.BuffersStayCanonical : Prop :=
  ∀ (s t : State), BuffersCanonical s → step s = .next t → BuffersCanonical t

/-- R50, R60: no byte is ever written at or beyond IBUF_CAP or OBUF_CAP. -/
def Obligations.BuffersStayInBounds : Prop :=
  ∀ (s t : State), BuffersInBounds s → step s = .next t → BuffersInBounds t

/-- The invariants hold after reset, for every instance. -/
def Obligations.InvariantsHoldAtReset : Prop :=
  ∀ p, SequencerOk (State.resetWith p) ∧ WidthsOk (State.resetWith p) ∧
    BuffersCanonical (State.resetWith p) ∧ BuffersInBounds (State.resetWith p)

/-- R7: the parameters of the instance are no state: no step changes them. -/
def Obligations.NoStepChangesTheInstance : Prop :=
  ∀ (s t : State), step s = .next t → t.params = s.params

/-- R74, R91, R92: each operation writes its results and nothing else, whether it completes or fails:
every other register, table and flag is as before, and where it completes, so is every byte of OBUF at
or beyond WPOS and of PAYLOAD at or beyond PLEN. -/
def Obligations.EachOperationWritesOnlyItsOutputs : Prop :=
  ∀ i (s t : State), exec i s = .next t → WritesOnlyItsOutputs i s t

/-- R222, R181: a component operation run stand-alone writes no STATUS, PHASE, ERRINFO or OLEN. -/
def Obligations.StandAloneOperationsLeaveTheHostRegisters : Prop :=
  ∀ i (s t : State), isComponent i = true → exec i s = .next t →
    statusWord t = statusWord s ∧ t.errinfo = s.errinfo ∧ t.olen = s.olen

/-! ### Memory and its named accesses -/

/-- R53: `U32` and `BytesU32` are inverse to each other, little-endian. -/
def Obligations.U32AndBytesU32AreInverse : Prop :=
  (∀ v, v < 2 ^ 32 → (bytesU32 v).length = 4 ∧ u32 (bytesU32 v) = v) ∧
  (∀ b0 b1 b2 b3 : Byte,
    u32 [b0, b1, b2, b3] =
        b0.toNat + 256 * b1.toNat + 65536 * b2.toNat + 16777216 * b3.toNat ∧
      bytesU32 (u32 [b0, b1, b2, b3]) = [b0, b1, b2, b3])

/-- R54, R55: setting stream bit `i` changes that bit and no other bit of the stream. -/
def Obligations.SetBitChangesExactlyOneStreamBit : Prop :=
  ∀ sp (m : Mem) i v j, (m.setBit sp i v).bit sp j = if j = i then v else m.bit sp j

/-- R68: `Need(n)`, where RPOS ≤ ILEN ≤ IBUF_CAP as in every CF.READ of a command; and `Need(0)`
returns the empty sequence and never fails, in every state. -/
def Obligations.NeedReadsOrRaisesFormatError : Prop :=
  (∀ n (s : State) k, s.rpos ≤ s.ilen.toNat → s.ilen.toNat ≤ s.params.ibufCap.toNat →
    need n s k =
      if s.rpos + n > s.ilen.toNat then .raise .format s
      else k (s.ibuf.readBytes .ibuf s.rpos n) { s with rpos := s.rpos + n }) ∧
  ∀ (s : State) k, need 0 s k = k [] s

/-- R69: `Emit(B)`: an overflow is raised with nothing written; otherwise the bytes stand at the old
WPOS, every other byte of OBUF is unchanged, and WPOS has moved past them. -/
def Obligations.EmitWritesOrRaisesOverflow : Prop :=
  ∀ bs (s : State),
    (s.wpos + bs.length > s.params.obufCap.toNat → emit bs s = .raise .outputOverflow s) ∧
    (s.wpos + bs.length ≤ s.params.obufCap.toNat →
      ∃ t, emit bs s = .done t ∧ t = { s with obuf := t.obuf, wpos := s.wpos + bs.length } ∧
        (∀ k, (h : k < bs.length) → t.obuf.read .obuf (s.wpos + k) = bs[k]) ∧
        (∀ a, a < s.wpos ∨ s.wpos + bs.length ≤ a → t.obuf.read .obuf a = s.obuf.read .obuf a))

/-- R144: `RevLookup(c)` is an exact match; where equal bits have equal symbols it answers the symbol
of every entry; and it is None for the empty bit-string where no entry has length 0. -/
def Obligations.RevLookupIsAnExactMatch : Prop :=
  ∀ rev c, (∀ b, revLookup rev c = some b → ∃ e ∈ rev, e.bits = c ∧ e.sym = b) ∧
    (revLookup rev c = none ↔ ∀ e ∈ rev, e.bits ≠ c) ∧
    ((∀ e ∈ rev, ∀ e' ∈ rev, e.bits = e'.bits → e.sym = e'.sym) →
      ∀ e ∈ rev, e.bits = c → revLookup rev c = some e.sym) ∧
    ((∀ e ∈ rev, e.bits ≠ []) → revLookup rev [] = none)

/-! ### The PriorityQueue -/

/-- R105, R109: PQ.INSERT completes exactly when SIZE is not CAP, appending and sifting up, and otherwise
ends with OverflowError, in either case with nothing else changed. -/
def Obligations.PqInsertAppendsAndSiftsUp : Prop :=
  ∀ (s : State), (s.size ≠ s.params.queue.cap →
      exec .pqInsert s = .next { s with
        heap := siftUp (s.less s.params.queue) (s.heap ++ [s.pqArgv]) s.size
        unitErr := none }) ∧
    (s.size = s.params.queue.cap →
      exec .pqInsert s = .next { s with unitErr := some .overflow })

/-- R106, R109: PQ.EXTRACTMIN returns the root in PQ_RES, moves the last element to the root and sifts it
down; on an empty queue it ends with EmptyError. -/
def Obligations.PqExtractMinReturnsTheRoot : Prop :=
  (∀ (s : State) r, s.heap = [r] →
    exec .pqExtractMin s = .next { s with pqRes := r, heap := [], unitErr := none }) ∧
  (∀ (s : State) r m v, s.heap = r :: m ++ [v] →
    exec .pqExtractMin s = .next { s with
      pqRes := r
      heap := siftDown (s.less s.params.queue) (v :: m) 0
      unitErr := none }) ∧
  (∀ (s : State), s.heap = [] → exec .pqExtractMin s = .next { s with unitErr := some .empty })

/-- R107, R109: PQ.BUILD replaces the content by the items and sifts down from n/2 - 1 to 0; with more
than CAP items it ends with CapacityError. -/
def Obligations.PqBuildReplacesTheContent : Prop :=
  ∀ (s : State), (s.pqItems.length ≤ s.params.queue.cap →
      exec .pqBuild s = .next { s with
        heap := ((List.range (s.pqItems.length / 2)).reverse).foldl
          (siftDown (s.less s.params.queue)) s.pqItems
        unitErr := none }) ∧
    (s.params.queue.cap < s.pqItems.length →
      exec .pqBuild s = .next { s with unitErr := some .capacity })

/-- R108, R109, R221: PQ.DECREASEKEY replaces and sifts up; RangeError where the index is not below SIZE,
OrderingError where the new value is not less than the old. -/
def Obligations.PqDecreaseKeyReplacesAndSiftsUp : Prop :=
  (∀ (s : State) old, s.heap[s.pqArgi]? = some old → s.less s.params.queue s.pqArgv old = true →
    exec .pqDecreaseKey s = .next { s with
      heap := siftUp (s.less s.params.queue) (s.heap.set s.pqArgi s.pqArgv) s.pqArgi
      unitErr := none }) ∧
  (∀ (s : State), s.size ≤ s.pqArgi →
    exec .pqDecreaseKey s = .next { s with unitErr := some .range }) ∧
  (∀ (s : State) old, s.heap[s.pqArgi]? = some old → s.less s.params.queue s.pqArgv old = false →
    exec .pqDecreaseKey s = .next { s with unitErr := some .ordering })

/-- R109: a PQ operation that raises an error changes nothing: not HEAP, not SIZE, not PQ_RES. -/
def Obligations.AFailingQueueOperationChangesNothing : Prop :=
  ∀ i (s t : State), isQueueOp i = true → exec i s = .next t → t.unitErr ≠ none →
    t = { s with unitErr := t.unitErr }

/-- R101: every PQ operation, whether it completes or fails, keeps the heap invariant, for every order
an instance can have and every content; and after reset it holds. -/
def Obligations.QueueOperationsKeepTheHeapInvariant : Prop :=
  (∀ i (s t : State), isQueueOp i = true → HeapOrdered (s.less s.params.queue) s.heap →
    exec i s = .next t → HeapOrdered (t.less t.params.queue) t.heap) ∧
  ∀ p less, (State.resetWith p).size = 0 ∧ HeapOrdered less (State.resetWith p).heap

/-- R111, R106: in a queue that satisfies the heap invariant the element that PQ.EXTRACTMIN returns is a
minimum: no stored element is less than it. -/
def Obligations.ExtractMinReturnsAMinimum : Prop :=
  ∀ (s t : State), HeapOrdered (s.less s.params.queue) s.heap → exec .pqExtractMin s = .next t →
    t.unitErr = none → t.pqRes ∈ s.heap ∧
      ∀ x ∈ s.heap, s.less s.params.queue x t.pqRes = false

/-- R105 to R108: the elements are conserved. The queue is a multiset: an insertion adds the value, an
extraction removes the result, a build leaves the items, a decrease exchanges one element. -/
def Obligations.QueueOperationsConserveTheElements : Prop :=
  (∀ (s t : State), exec .pqInsert s = .next t → t.unitErr = none → (s.pqArgv :: s.heap).Perm t.heap) ∧
  (∀ (s t : State), exec .pqExtractMin s = .next t → t.unitErr = none →
    s.heap.Perm (t.pqRes :: t.heap)) ∧
  (∀ (s t : State), exec .pqBuild s = .next t → t.unitErr = none → s.pqItems.Perm t.heap) ∧
  (∀ (s t : State), exec .pqDecreaseKey s = .next t → t.unitErr = none →
    (s.heap.set s.pqArgi s.pqArgv).Perm t.heap)

/-- R100, R103, R104, R107: the sift procedures restore the heap invariant under EVERY strict weak order,
not only those an instance of the model can have: insertion, extraction, build and decrease keep it.
R103: siftUp swaps an element with its parent where it is less, and stops at the root and where it is
not less, so also on a tie. And R104, D11: an element is swapped with the left child where that is less and the right is not less
than the left, so on a tie of the two children the left is taken; with the right child where that is
less, and less than a left one that is less; and it stays where no child is less. -/
def Obligations.SiftsRestoreTheHeapUnderAnyOrder : Prop :=
  ∀ less, StrictWeak less →
    (∀ h v, HeapOrdered less h → HeapOrdered less (heapInsert less h v)) ∧
    (∀ h, HeapOrdered less h → HeapOrdered less (heapExtract less h)) ∧
    (∀ items, HeapOrdered less (heapBuild less items)) ∧
    (∀ h i v, HeapOrdered less h → (∀ old, h[i]? = some old → less v old = true) →
      HeapOrdered less (heapDecrease less h i v)) ∧
    (∀ h, siftUp less h 0 = h) ∧
    (∀ h i a p, 0 < i → h[i]? = some a → h[(i - 1) / 2]? = some p →
      (less a p = true →
        siftUp less h i = siftUp less ((h.set i p).set ((i - 1) / 2) a) ((i - 1) / 2)) ∧
      (less a p = false → siftUp less h i = h)) ∧
    (∀ h i, h[2 * i + 1]? = none → siftDown less h i = h) ∧
    ∀ h i a l, h[i]? = some a → h[2 * i + 1]? = some l →
      (less l a = true → (∀ r, h[2 * i + 2]? = some r → less r l = false) →
        siftDown less h i = siftDown less ((h.set i l).set (2 * i + 1) a) (2 * i + 1)) ∧
      (∀ r, h[2 * i + 2]? = some r → less r a = true → (less l a = true → less r l = true) →
        siftDown less h i = siftDown less ((h.set i r).set (2 * i + 2) a) (2 * i + 2)) ∧
      (less l a = false → (∀ r, h[2 * i + 2]? = some r → less r a = false) →
        siftDown less h i = h)

/-- R100, R125: every order an instance can have is a strict weak order, and the TreeBuilder's is total
on distinct indices. -/
def Obligations.InstanceOrdersAreStrictWeakOrders : Prop :=
  (∀ o arena, StrictWeak (orderLess o arena)) ∧
  (∀ arena a b, a ≠ b → nodeLess arena a b = true ∨ nodeLess arena b a = true)

/-! ### Frequency counting and the tree -/

/-- R120: FC.COUNT completes for every legal length; FREQ[s] becomes the number of occurrences of `s`
in IBUF[0 .. ILEN), and nothing else changes. -/
def Obligations.FcCountCountsTheText : Prop :=
  ∀ (s : State), s.ilen.toNat ≤ s.params.ibufCap.toNat →
    ∃ t, exec .fcCount s = .next t ∧ t = { s with freq := t.freq, unitErr := none } ∧
      ∀ b, (tableGet t.freq b).toNat =
        (s.ibuf.readBytes .ibuf 0 s.ilen.toNat).count b

/-- R128 to R132: TB.BUILD completes on every frequency table; with n present symbols the queue is left
empty, NNODES is 2n - 1 (0 for the empty table) and ROOT is the last record (None for the empty table). -/
def Obligations.TbBuildCompletesWithOneRoot : Prop :=
  ∀ (s : State), ∃ t, exec .tbBuild s = .next t ∧
    t = { s with arena := t.arena, root := t.root, heap := [], pqArgv := t.pqArgv,
                 pqRes := t.pqRes, unitErr := none } ∧
    (presentCounts s.freq = [] → t.nnodes = 0 ∧ t.root = none) ∧
    (presentCounts s.freq ≠ [] →
      t.nnodes = 2 * (presentCounts s.freq).length - 1 ∧
        t.root = some (BitVec.ofNat 9 (t.nnodes - 1)))

/-- R124, R126, R131 (a), (b), (d): the leaves stand first in ascending symbol order; every other record
is Internal, its children stand below it and differ, and its frequency is their sum. -/
def Obligations.TbBuildArenaIsAForestOfSums : Prop :=
  ∀ (s t : State), exec .tbBuild s = .next t →
    t.arena.take (presentCounts s.freq).length =
        (presentCounts s.freq).map (fun x => Node.leaf x.1 x.2) ∧
      ∀ k, (presentCounts s.freq).length ≤ k → k < t.nnodes →
        ∃ f l r, t.arena[k]? = some (.internal f l r) ∧ l.toNat < k ∧ r.toNat < k ∧ l ≠ r ∧
          f = addFreq (nodeFreq t.arena l.toNat) (nodeFreq t.arena r.toNat)

/-- R131 (c), R30: after TB.BUILD every record but the root is the child of exactly one Internal record,
once, and the root of none. -/
def Obligations.EveryNodeButTheRootHasOneParent : Prop :=
  ∀ (s t : State), exec .tbBuild s = .next t → ∀ j, j < t.nnodes →
    (t.arena.flatMap childrenOf).count j = if t.root = some (BitVec.ofNat 9 j) then 0 else 1

/-- R126, R127, R125: one merge takes the two least queued nodes, the least as the left child; both
leave the queue, the new record's index enters it, and it stays a heap. -/
def Obligations.AMergeTakesTheTwoLeastNodes : Prop :=
  ∀ (s : State), HeapOrdered (nodeLess s.arena) s.heap → s.heap.Nodup → 1 < s.heap.length →
    s.heap.length ≤ 256 → (∀ k ∈ s.heap, k < s.arena.length) → s.arena.length ≤ 511 →
    ∃ t x y, mergeOnce s = .done t ∧ x ∈ s.heap ∧ y ∈ s.heap ∧ x ≠ y ∧
      t.arena = s.arena ++ [.internal (addFreq (nodeFreq s.arena x) (nodeFreq s.arena y))
        (BitVec.ofNat 9 x) (BitVec.ofNat 9 y)] ∧
      nodeLess s.arena x y = true ∧
      (∀ z ∈ s.heap, z ≠ x → z ≠ y → nodeLess s.arena y z = true) ∧
      (x :: y :: t.heap).Perm (s.arena.length :: s.heap) ∧
      t.heap.length + 1 = s.heap.length ∧ HeapOrdered (nodeLess t.arena) t.heap

/-! ### Codes -/

/-- R135, R137, R138: with ROOT = None CG.GEN leaves every symbol without a code; when ROOT is a Leaf,
its symbol gets the code "0" and nothing else is written. -/
def Obligations.CgGenOfNoTreeAndOfASingleLeaf : Prop :=
  (∀ (s : State), s.root = none →
    ∃ t, exec .cgGen s = .next t ∧ t = { s with code := t.code, unitErr := none } ∧
      ∀ b, tableGet t.code b = []) ∧
  (∀ (s : State) k sym f, s.root = some k → s.arena[k.toNat]? = some (.leaf sym f) →
    ∃ t, exec .cgGen s = .next t ∧ t = { s with code := t.code, unitErr := none } ∧
      tableGet t.code sym = [false] ∧ ∀ b, b ≠ sym → tableGet t.code b = [])

/-- R136, R138: where ROOT is Internal and every path from it ends in a Leaf after at most 255 choices,
CG.GEN completes with nothing else changed, every code it records is the path from the root to a leaf
of its symbol, and every leaf that a path reaches gives its symbol a code. -/
def Obligations.CgGenRecordsPathsToLeaves : Prop :=
  ∀ (s : State) k f l r, s.root = some k → s.arena[k.toNat]? = some (.internal f l r) →
    endsWithin s.arena 256 k = true →
    ∃ t, exec .cgGen s = .next t ∧ t = { s with code := t.code, unitErr := none } ∧
      (∀ b, tableGet t.code b ≠ [] →
        ∃ g, walk s.arena k (tableGet t.code b) = some (.leaf b g)) ∧
      ∀ c b g, walk s.arena k c = some (.leaf b g) → tableGet t.code b ≠ []

/-- R139 (a), (b), (c), R138, R131: on the tree of any frequency table CG.GEN completes; exactly the
present symbols get a code, every code has 1 to 255 bits, and the table is prefix-free. -/
def Obligations.CgGenOfABuiltTreeIsAPrefixCode : Prop :=
  ∀ (s t : State), exec .tbBuild s = .next t →
    ∃ u, exec .cgGen t = .next u ∧ u.unitErr = none ∧ PrefixFree u.code ∧ CodesFit u.code ∧
      ∀ b, tableGet u.code b ≠ [] ↔ tableGet s.freq b ≠ 0#32

/-- R141, R143: where all codes differ CG.INVERT completes with the exact inverse, of the size of the
CodeTable, and nothing else changes. -/
def Obligations.CgInvertInvertsADistinctTable : Prop :=
  ∀ (s : State), CodesDistinct s.code →
    ∃ t, exec .cgInvert s = .next t ∧ t = { s with rev := t.rev, unitErr := none } ∧
      IsInverse s.code t.rev ∧ t.rn = (presentCodes s.code).length

/-- R141, R142: where two symbols have the same code CG.INVERT ends with DuplicateCodeError. -/
def Obligations.CgInvertRaisesOnADuplicate : Prop :=
  ∀ (s : State) a b, a ≠ b → tableGet s.code a ≠ [] → tableGet s.code a = tableGet s.code b →
    ∃ t, exec .cgInvert s = .next t ∧ t.unitErr = some .duplicateCode ∧
      t = { s with rev := t.rev, unitErr := t.unitErr, fresh := t.fresh }

/-! ### Packed bits -/

/-- R150, R152, R153, R55: where every byte of the text has a code and the bit total fits, BP.ENCODE
completes: VBC is the total, PLEN = ceil(VBC / 8), the stream is the concatenated codes, the padding is
0, and every other byte of PAYLOAD is unchanged. -/
def Obligations.BpEncodePacksTheCodes : Prop :=
  ∀ (s : State), s.ilen.toNat ≤ s.params.ibufCap.toNat →
    (∀ b ∈ s.inputText, tableGet s.code b ≠ []) →
    (textBits s.code s.inputText).length ≤ 2 ^ 32 - 1 →
    ∃ t, exec .bpEncode s = .next t ∧
      t = { s with payload := t.payload, plen := t.plen, vbc := t.vbc, bitpos := t.bitpos,
                   pkByte := t.pkByte, pkCnt := t.pkCnt, unitErr := none } ∧
      t.vbc.toNat = (textBits s.code s.inputText).length ∧
      t.plen.toNat = ceilDiv8 t.vbc.toNat ∧
      storedBits t = textBits s.code s.inputText ∧
      (∀ i, t.vbc.toNat ≤ i → i < 8 * t.plen.toNat → t.payload.bit .payload i = false) ∧
      (∀ a, t.plen.toNat ≤ a → t.payload.read .payload a = s.payload.read .payload a)

/-- R151, R152, R221: BP.ENCODE ends with UnknownSymbolError where a byte of the text has no code, and
with OutputOverflowError where all have one and the bit total is above 2^32 - 1. -/
def Obligations.BpEncodeRaisesItsTwoErrors : Prop :=
  ∀ (s : State), s.ilen.toNat ≤ s.params.ibufCap.toNat →
    ((∃ b ∈ s.inputText, tableGet s.code b = []) →
      ∃ t, exec .bpEncode s = .next t ∧ t.unitErr = some .unknownSymbol) ∧
    ((∀ b ∈ s.inputText, tableGet s.code b ≠ []) →
      2 ^ 32 - 1 < (textBits s.code s.inputText).length →
      ∃ t, exec .bpEncode s = .next t ∧ t.unitErr = some .outputOverflow)

/-- R161: with VBC = 0 BP.DECODE completes with the empty text, whatever REV and OBUF hold, and no byte
of OBUF changes. That ACC, WPOS and BITPOS are then cleared is R39 and R41, where BITPOS is the index
i of R154 (log 18). -/
def Obligations.BpDecodeOfNoBitsIsTheEmptyText : Prop :=
  ∀ (s : State), s.vbc = 0#32 →
    exec .bpDecode s = .next { s with acc := [], wpos := 0, bitpos := 0, unitErr := none }

/-- R154 to R157, R160, R221: BP.DECODE is the greedy decoder on bits 0 to VBC - 1. Where the symbols
fit OBUF and no bit is left it completes with them at OBUF[0 .. WPOS) and no other byte changed;
with a bit left it ends with IncompleteDataError; where they do not fit, with OutputOverflowError. -/
def Obligations.BpDecodeIsTheGreedyDecoder : Prop :=
  ∀ (s : State), s.vbc.toNat ≤ 8 * s.plen.toNat →
    ((greedy s.rev [] (storedBits s)).1.length ≤ s.params.obufCap.toNat →
      (greedy s.rev [] (storedBits s)).2 = [] →
      ∃ t, exec .bpDecode s = .next t ∧
        t = { s with obuf := t.obuf, wpos := t.wpos, acc := [], bitpos := t.bitpos,
                     unitErr := none } ∧
        t.wpos = (greedy s.rev [] (storedBits s)).1.length ∧
        t.obuf.readBytes .obuf 0 t.wpos = (greedy s.rev [] (storedBits s)).1 ∧
        ∀ a, t.wpos ≤ a → t.obuf.read .obuf a = s.obuf.read .obuf a) ∧
    ((greedy s.rev [] (storedBits s)).1.length ≤ s.params.obufCap.toNat →
      (greedy s.rev [] (storedBits s)).2 ≠ [] →
      ∃ t, exec .bpDecode s = .next t ∧ t.unitErr = some .incompleteData) ∧
    (s.params.obufCap.toNat < (greedy s.rev [] (storedBits s)).1.length →
      ∃ t, exec .bpDecode s = .next t ∧ t.unitErr = some .outputOverflow)

/-- R162: decoding what BP.ENCODE packed, under a prefix-free table and its inverse, gives back the
text. -/
def Obligations.BpDecodeInvertsBpEncode : Prop :=
  ∀ (s t : State), PrefixFree s.code → IsInverse s.code s.rev →
    s.ilen.toNat ≤ s.params.ibufCap.toNat → s.ilen.toNat ≤ s.params.obufCap.toNat →
    exec .bpEncode s = .next t → t.unitErr = none →
    ∃ u, exec .bpDecode t = .next u ∧ u.unitErr = none ∧ u.wpos = s.ilen.toNat ∧
      u.obuf.readBytes .obuf 0 u.wpos = s.inputText

/-! ### The container -/

/-- R165, R169, R170, R75: where the container fits OBUF, CF.WRITE completes with it at OBUF[0 .. WPOS),
WPOS its length, no other byte of OBUF and nothing else changed; where it does not fit, CF.WRITE ends
with OutputOverflowError. -/
def Obligations.CfWriteEmitsTheContainer : Prop :=
  (∀ (s : State), (containerOf s).length ≤ s.params.obufCap.toNat →
    ∃ t, exec .cfWrite s = .next t ∧
      t = { s with obuf := t.obuf, wpos := t.wpos, unitErr := none } ∧
      t.wpos = (containerOf s).length ∧
      t.wpos = 8 + ((presentCodes s.code).map fun x => 2 + x.2.length).sum + s.plen.toNat ∧
      t.obuf.readBytes .obuf 0 t.wpos = containerOf s ∧
      ∀ a, t.wpos ≤ a → t.obuf.read .obuf a = s.obuf.read .obuf a) ∧
  (∀ (s : State), s.params.obufCap.toNat < (containerOf s).length →
    ∃ t, exec .cfWrite s = .next t ∧ t.unitErr = some .outputOverflow)

/-- R180, R175, R53: reading the container that a table, a bit count and a payload make gives them back:
CF.READ completes with the inverse table, the same VBC, PLEN and payload bytes, and RPOS at the
container's end; every other byte of PAYLOAD is unchanged. Bytes after the container do not matter.
And R81, R85, R87, R88: well-formed entries are read in whatever order they stand and whether or not their
codes are prefix-free. -/
def Obligations.CfReadInvertsCfWrite : Prop :=
  (∀ (c s : State), CodesDistinct c.code → CodesFit c.code → c.plen.toNat = ceilDiv8 c.vbc.toNat →
    s.ilen.toNat ≤ s.params.ibufCap.toNat → (containerOf c).length ≤ s.ilen.toNat →
    s.ibuf.readBytes .ibuf 0 (containerOf c).length = containerOf c →
    ∃ t, exec .cfRead s = .next t ∧
      t = { s with rev := invertedTable c.code, vbc := c.vbc, payload := t.payload,
                   plen := c.plen, rpos := (containerOf c).length, unitErr := none } ∧
      t.payload.readBytes .payload 0 t.plen.toNat =
        c.payload.readBytes .payload 0 c.plen.toNat ∧
      PayloadKeptBeyond s t) ∧
  ∀ (s : State) es vbc payload, IsContainer s.inputText es vbc payload →
    s.ilen.toNat ≤ s.params.ibufCap.toNat →
    ∃ t, exec .cfRead s = .next t ∧ t.unitErr = none ∧ t.vbc = vbc ∧
      t.plen.toNat = ceilDiv8 vbc.toNat ∧
      (∀ x ∈ es, revLookup t.rev x.2 = some x.1) ∧ t.rn = es.length ∧
      t.payload.readBytes .payload 0 t.plen.toNat = payload ∧ PayloadKeptBeyond s t

/-- R176, R85, R172 to R175, R177: every proper prefix of a container written by CF.WRITE fails with
FormatError. So does every input in which, after any number of well-formed entries in any order, an
entry that dictSize counts has codeLen 0, a codeBits byte other than 0x30 and 0x31, or the symbol or
the code of an earlier entry, whatever follows it; and every input that ends inside dictSize, inside
an entry that dictSize counts, or after all entries inside validBitCount or the payload. -/
def Obligations.ATruncatedContainerIsAFormatError : Prop :=
  (∀ (c s : State), CodesDistinct c.code → CodesFit c.code → c.plen.toNat = ceilDiv8 c.vbc.toNat →
    s.ilen.toNat ≤ s.params.ibufCap.toNat → s.ilen.toNat < (containerOf c).length →
    s.ibuf.readBytes .ibuf 0 s.ilen.toNat = (containerOf c).take s.ilen.toNat →
    ∃ t, exec .cfRead s = .next t ∧ t.unitErr = some .format) ∧
  (∀ (s : State) es bad rest d, GoodEntries es → BadEntry es bad → es.length < d → d < 2 ^ 32 →
    s.ilen.toNat ≤ s.params.ibufCap.toNat →
    s.inputText = bytesU32 d ++ es.flatMap entryBytes ++ bad ++ rest →
    ∃ t, exec .cfRead s = .next t ∧ t.unitErr = some .format) ∧
  (∀ (s : State), s.ilen.toNat < 4 →
    ∃ t, exec .cfRead s = .next t ∧ t.unitErr = some .format) ∧
  (∀ (s : State) es tail d, GoodEntries es → CutEntry tail → es.length < d → d < 2 ^ 32 →
    s.ilen.toNat ≤ s.params.ibufCap.toNat →
    s.inputText = bytesU32 d ++ es.flatMap entryBytes ++ tail →
    ∃ t, exec .cfRead s = .next t ∧ t.unitErr = some .format) ∧
  ∀ (s : State) es tail, GoodEntries es → CutTail tail →
    s.ilen.toNat ≤ s.params.ibufCap.toNat →
    s.inputText = bytesU32 es.length ++ es.flatMap entryBytes ++ tail →
    ∃ t, exec .cfRead s = .next t ∧ t.unitErr = some .format

/-! ### The commands -/

/-- R89, R167, R161, R187, R189: COMPRESS of the empty text completes with the eight zero bytes of the
empty container, and DECOMPRESS of them completes with the empty text. -/
def Obligations.TheEmptyTextAndTheEmptyContainer : Prop :=
  (∀ (s : State), s.busy = false → s.ilen = 0#32 → 8 ≤ s.params.obufCap.toNat →
    ∃ t, exec .compress s = .next t ∧ t.done = true ∧ t.err = false ∧ t.busy = false ∧
      t.op = .idle ∧ t.phase = .idle ∧ t.errinfo = 0#32 ∧ t.olen = 8#32 ∧
      hostOutput t = [0#8, 0#8, 0#8, 0#8, 0#8, 0#8, 0#8, 0#8]) ∧
  (∀ (s : State), s.busy = false → 8 ≤ s.ilen.toNat → s.ilen.toNat ≤ s.params.ibufCap.toNat →
    s.ibuf.readBytes .ibuf 0 8 = List.replicate 8 0#8 →
    ∃ t, exec .decompress s = .next t ∧ t.done = true ∧ t.err = false ∧ t.busy = false ∧
      t.op = .idle ∧ t.phase = .idle ∧ t.errinfo = 0#32 ∧ t.olen = 0#32)

/-- R187, R152, R170: COMPRESS completes for every text of at most (2^32 - 1) / 255 bytes and an OBUF
that holds 65 800 bytes and 32 bytes a symbol, a bound that needs no optimality of the code. -/
def Obligations.CompressCompletesWithinBounds : Prop :=
  ∀ (s : State), s.busy = false → s.ilen.toNat ≤ s.params.ibufCap.toNat → s.ilen.toNat ≤ 16843009 →
    65800 + 32 * s.ilen.toNat ≤ s.params.obufCap.toNat →
    ∃ t, exec .compress s = .next t ∧ t.done = true ∧ t.err = false ∧ t.busy = false ∧
      t.op = .idle ∧ t.phase = .idle ∧ t.errinfo = 0#32

/-- R219, R191, R223: issued in an idle machine, COMPRESS always ends, in DONE or in ERR, back at Idle,
with IBUF and ILEN unchanged; on completion no byte of OBUF at or beyond OLEN and no byte of PAYLOAD at
or beyond PLEN has changed; its only errors are CommandError and OutputOverflowError, with OLEN 0. From
Idle, R187, R152: EOP is 1, EPHASE is Idle for CommandError, Packed for a container that does not fit,
CodesGenerated for a bit total above its limit. And R187, R91, R250: for a legal ILEN the output is
the container of the text under the codes that FC.COUNT, TB.BUILD and CG.GEN leave one after the
other; it completes where the bit total and the container fit, and else ends with one of the two
OutputOverflowErrors. By R152 no text reaches the bit total of the last case, which needs the code's
optimality and is stated so that the three cases are all there are. -/
def Obligations.CompressEndsWithOneOfItsTwoErrors : Prop :=
  (∀ (s : State), s.busy = false →
    ∃ t, exec .compress s = .next t ∧ t.busy = false ∧ t.op = .idle ∧ t.phase = .idle ∧
      t.done = !t.err ∧ t.ibuf = s.ibuf ∧ t.ilen = s.ilen ∧
      (t.err = false →
        (∀ a, t.olen.toNat ≤ a → t.obuf.read .obuf a = s.obuf.read .obuf a) ∧
        ∀ a, t.plen.toNat ≤ a → t.payload.read .payload a = s.payload.read .payload a) ∧
      (t.err = true → t.olen = 0#32 ∧
        (errInfoCode t.errinfo = errCode .command ∨
          errInfoCode t.errinfo = errCode .outputOverflow) ∧
        (s.phase = .idle →
          t.errinfo = errInfoWord .command .idle .compress ∨
          t.errinfo = errInfoWord .outputOverflow .codesGenerated .compress ∨
          t.errinfo = errInfoWord .outputOverflow .packed .compress))) ∧
  ∀ (s f b c : State), s.busy = false → lengthLegal .compress s = true →
    exec .fcCount s = .next f → exec .tbBuild f = .next b → exec .cgGen b = .next c →
    ((textBits c.code s.inputText).length ≤ 2 ^ 32 - 1 →
      (containerOfText c.code s.inputText).length ≤ s.params.obufCap.toNat →
      ∃ t, exec .compress s = .next t ∧ statusWord t = 2#32 ∧ t.errinfo = 0#32 ∧
        t.olen.toNat = (containerOfText c.code s.inputText).length ∧
        hostOutput t = containerOfText c.code s.inputText) ∧
    ((textBits c.code s.inputText).length ≤ 2 ^ 32 - 1 →
      s.params.obufCap.toNat < (containerOfText c.code s.inputText).length →
      ∃ t, exec .compress s = .next t ∧ statusWord t = 4#32 ∧ t.olen = 0#32 ∧
        t.errinfo = errInfoWord .outputOverflow .packed .compress) ∧
    (2 ^ 32 - 1 < (textBits c.code s.inputText).length →
      ∃ t, exec .compress s = .next t ∧ statusWord t = 4#32 ∧ t.olen = 0#32 ∧
        t.errinfo = errInfoWord .outputOverflow .codesGenerated .compress)

/-- R219, R191, R223: issued in an idle machine, DECOMPRESS always ends, in DONE or in ERR, back at Idle,
with IBUF and ILEN unchanged; on completion no byte of OBUF at or beyond OLEN and no byte of PAYLOAD at
or beyond PLEN has changed; its only errors are CommandError, FormatError, IncompleteDataError and
OutputOverflowError, with OLEN 0. From Idle, R181, R189: EOP is 2, EPHASE is Idle for CommandError,
Idle or HeaderParsed for FormatError, TableLoaded for the other two. And R81, R87, R88, R154, R189: on
a container with its entries in any order, prefix-free or not, and whatever follows it, it completes
with the greedy decoder's symbols where they fit OBUF and no bit is left, and else ends with
IncompleteDataError or OutputOverflowError. -/
def Obligations.DecompressEndsWithOneOfItsFourErrors : Prop :=
  (∀ (s : State), s.busy = false →
    ∃ t, exec .decompress s = .next t ∧ t.busy = false ∧ t.op = .idle ∧ t.phase = .idle ∧
      t.done = !t.err ∧ t.ibuf = s.ibuf ∧ t.ilen = s.ilen ∧
      (t.err = false →
        (∀ a, t.olen.toNat ≤ a → t.obuf.read .obuf a = s.obuf.read .obuf a) ∧
        ∀ a, t.plen.toNat ≤ a → t.payload.read .payload a = s.payload.read .payload a) ∧
      (t.err = true → t.olen = 0#32 ∧
        (errInfoCode t.errinfo = errCode .command ∨ errInfoCode t.errinfo = errCode .format ∨
          errInfoCode t.errinfo = errCode .incompleteData ∨
          errInfoCode t.errinfo = errCode .outputOverflow) ∧
        (s.phase = .idle →
          t.errinfo = errInfoWord .command .idle .decompress ∨
          t.errinfo = errInfoWord .format .idle .decompress ∨
          t.errinfo = errInfoWord .format .headerParsed .decompress ∨
          t.errinfo = errInfoWord .incompleteData .tableLoaded .decompress ∨
          t.errinfo = errInfoWord .outputOverflow .tableLoaded .decompress))) ∧
  ∀ (s : State) es vbc payload, s.busy = false → s.ilen.toNat ≤ s.params.ibufCap.toNat →
    IsContainer s.inputText es vbc payload →
    ((greedy (revOf es) [] (packedBits payload vbc.toNat)).1.length ≤ s.params.obufCap.toNat →
      (greedy (revOf es) [] (packedBits payload vbc.toNat)).2 = [] →
      ∃ t, exec .decompress s = .next t ∧ statusWord t = 2#32 ∧ t.errinfo = 0#32 ∧
        t.olen.toNat = (greedy (revOf es) [] (packedBits payload vbc.toNat)).1.length ∧
        hostOutput t = (greedy (revOf es) [] (packedBits payload vbc.toNat)).1) ∧
    ((greedy (revOf es) [] (packedBits payload vbc.toNat)).1.length ≤ s.params.obufCap.toNat →
      (greedy (revOf es) [] (packedBits payload vbc.toNat)).2 ≠ [] →
      ∃ t, exec .decompress s = .next t ∧ statusWord t = 4#32 ∧ t.olen = 0#32 ∧
        t.errinfo = errInfoWord .incompleteData .tableLoaded .decompress) ∧
    (s.params.obufCap.toNat < (greedy (revOf es) [] (packedBits payload vbc.toNat)).1.length →
      ∃ t, exec .decompress s = .next t ∧ statusWord t = 4#32 ∧ t.olen = 0#32 ∧
        t.errinfo = errInfoWord .outputOverflow .tableLoaded .decompress)

/-- R193, R185: no hidden state. Two idle machines of the same instance with the same ILEN and the same
input bytes give the same flags, ERRINFO, OLEN and output bytes, for both commands. -/
def Obligations.ACommandDependsOnItsInputAlone : Prop :=
  ∀ i (s s' t t' : State), isComponent i = false → s.busy = false → s'.busy = false →
    SequencerOk s → SequencerOk s' → s'.params = s.params → s'.ilen = s.ilen →
    s'.inputText = s.inputText → exec i s = .next t → exec i s' = .next t' →
    statusWord t' = statusWord t ∧ t'.errinfo = t.errinfo ∧ t'.olen = t.olen ∧
      hostOutput t' = hostOutput t

/-- R196: the round trip. Where COMPRESS completes, DECOMPRESS of its output on any machine that has
room for container and text completes with the text. -/
def Obligations.DecompressInvertsCompress : Prop :=
  ∀ (s t s' : State), s.busy = false → exec .compress s = .next t → t.done = true →
    s'.busy = false → s'.ilen = t.olen → s'.inputText = hostOutput t →
    s'.ilen.toNat ≤ s'.params.ibufCap.toNat → s.ilen.toNat ≤ s'.params.obufCap.toNat →
    ∃ u, exec .decompress s' = .next u ∧ u.done = true ∧ u.err = false ∧ u.olen = s.ilen ∧
      hostOutput u = s.inputText
end

