-- ==== Sys2Proof/Laws/State.lean ====
section
/-! SUPPORT. One lemma per field per named update of the state, true by computation: what each update
sets and what it leaves. Later proofs use these and never unfold an update. -/

namespace Sys2Proof.Machine

variable (s : State)

/-! setPhase -/

@[simp] theorem setPhase_params (p : Phase) : (s.setPhase p).params = s.params := rfl
@[simp] theorem setPhase_op (p : Phase) : (s.setPhase p).op = s.op := rfl
@[simp] theorem setPhase_phase (p : Phase) : (s.setPhase p).phase = p := rfl
@[simp] theorem setPhase_busy (p : Phase) : (s.setPhase p).busy = s.busy := rfl
@[simp] theorem setPhase_done (p : Phase) : (s.setPhase p).done = s.done := rfl
@[simp] theorem setPhase_err (p : Phase) : (s.setPhase p).err = s.err := rfl
@[simp] theorem setPhase_errinfo (p : Phase) : (s.setPhase p).errinfo = s.errinfo := rfl
@[simp] theorem setPhase_ilen (p : Phase) : (s.setPhase p).ilen = s.ilen := rfl
@[simp] theorem setPhase_olen (p : Phase) : (s.setPhase p).olen = s.olen := rfl
@[simp] theorem setPhase_ibuf (p : Phase) : (s.setPhase p).ibuf = s.ibuf := rfl
@[simp] theorem setPhase_obuf (p : Phase) : (s.setPhase p).obuf = s.obuf := rfl
@[simp] theorem setPhase_payload (p : Phase) : (s.setPhase p).payload = s.payload := rfl
@[simp] theorem setPhase_plen (p : Phase) : (s.setPhase p).plen = s.plen := rfl
@[simp] theorem setPhase_vbc (p : Phase) : (s.setPhase p).vbc = s.vbc := rfl
@[simp] theorem setPhase_pqArgv (p : Phase) : (s.setPhase p).pqArgv = s.pqArgv := rfl
@[simp] theorem setPhase_pqArgi (p : Phase) : (s.setPhase p).pqArgi = s.pqArgi := rfl
@[simp] theorem setPhase_pqRes (p : Phase) : (s.setPhase p).pqRes = s.pqRes := rfl
@[simp] theorem setPhase_pqItems (p : Phase) : (s.setPhase p).pqItems = s.pqItems := rfl
@[simp] theorem setPhase_heap (p : Phase) : (s.setPhase p).heap = s.heap := rfl
@[simp] theorem setPhase_freq (p : Phase) : (s.setPhase p).freq = s.freq := rfl
@[simp] theorem setPhase_arena (p : Phase) : (s.setPhase p).arena = s.arena := rfl
@[simp] theorem setPhase_root (p : Phase) : (s.setPhase p).root = s.root := rfl
@[simp] theorem setPhase_code (p : Phase) : (s.setPhase p).code = s.code := rfl
@[simp] theorem setPhase_rev (p : Phase) : (s.setPhase p).rev = s.rev := rfl
@[simp] theorem setPhase_acc (p : Phase) : (s.setPhase p).acc = s.acc := rfl
@[simp] theorem setPhase_pkByte (p : Phase) : (s.setPhase p).pkByte = s.pkByte := rfl
@[simp] theorem setPhase_pkCnt (p : Phase) : (s.setPhase p).pkCnt = s.pkCnt := rfl
@[simp] theorem setPhase_rpos (p : Phase) : (s.setPhase p).rpos = s.rpos := rfl
@[simp] theorem setPhase_wpos (p : Phase) : (s.setPhase p).wpos = s.wpos := rfl
@[simp] theorem setPhase_bitpos (p : Phase) : (s.setPhase p).bitpos = s.bitpos := rfl
@[simp] theorem setPhase_unitErr (p : Phase) : (s.setPhase p).unitErr = s.unitErr := rfl
@[simp] theorem setPhase_inputs (p : Phase) : (s.setPhase p).inputs = s.inputs := rfl
@[simp] theorem setPhase_fresh (p : Phase) : (s.setPhase p).fresh = s.fresh := rfl

/-! setOp -/

@[simp] theorem setOp_params (o : TopOp) : (s.setOp o).params = s.params := rfl
@[simp] theorem setOp_op (o : TopOp) : (s.setOp o).op = o := rfl
@[simp] theorem setOp_phase (o : TopOp) : (s.setOp o).phase = s.phase := rfl
@[simp] theorem setOp_busy (o : TopOp) : (s.setOp o).busy = s.busy := rfl
@[simp] theorem setOp_done (o : TopOp) : (s.setOp o).done = s.done := rfl
@[simp] theorem setOp_err (o : TopOp) : (s.setOp o).err = s.err := rfl
@[simp] theorem setOp_errinfo (o : TopOp) : (s.setOp o).errinfo = s.errinfo := rfl
@[simp] theorem setOp_ilen (o : TopOp) : (s.setOp o).ilen = s.ilen := rfl
@[simp] theorem setOp_olen (o : TopOp) : (s.setOp o).olen = s.olen := rfl
@[simp] theorem setOp_ibuf (o : TopOp) : (s.setOp o).ibuf = s.ibuf := rfl
@[simp] theorem setOp_obuf (o : TopOp) : (s.setOp o).obuf = s.obuf := rfl
@[simp] theorem setOp_payload (o : TopOp) : (s.setOp o).payload = s.payload := rfl
@[simp] theorem setOp_plen (o : TopOp) : (s.setOp o).plen = s.plen := rfl
@[simp] theorem setOp_vbc (o : TopOp) : (s.setOp o).vbc = s.vbc := rfl
@[simp] theorem setOp_pqArgv (o : TopOp) : (s.setOp o).pqArgv = s.pqArgv := rfl
@[simp] theorem setOp_pqArgi (o : TopOp) : (s.setOp o).pqArgi = s.pqArgi := rfl
@[simp] theorem setOp_pqRes (o : TopOp) : (s.setOp o).pqRes = s.pqRes := rfl
@[simp] theorem setOp_pqItems (o : TopOp) : (s.setOp o).pqItems = s.pqItems := rfl
@[simp] theorem setOp_heap (o : TopOp) : (s.setOp o).heap = s.heap := rfl
@[simp] theorem setOp_freq (o : TopOp) : (s.setOp o).freq = s.freq := rfl
@[simp] theorem setOp_arena (o : TopOp) : (s.setOp o).arena = s.arena := rfl
@[simp] theorem setOp_root (o : TopOp) : (s.setOp o).root = s.root := rfl
@[simp] theorem setOp_code (o : TopOp) : (s.setOp o).code = s.code := rfl
@[simp] theorem setOp_rev (o : TopOp) : (s.setOp o).rev = s.rev := rfl
@[simp] theorem setOp_acc (o : TopOp) : (s.setOp o).acc = s.acc := rfl
@[simp] theorem setOp_pkByte (o : TopOp) : (s.setOp o).pkByte = s.pkByte := rfl
@[simp] theorem setOp_pkCnt (o : TopOp) : (s.setOp o).pkCnt = s.pkCnt := rfl
@[simp] theorem setOp_rpos (o : TopOp) : (s.setOp o).rpos = s.rpos := rfl
@[simp] theorem setOp_wpos (o : TopOp) : (s.setOp o).wpos = s.wpos := rfl
@[simp] theorem setOp_bitpos (o : TopOp) : (s.setOp o).bitpos = s.bitpos := rfl
@[simp] theorem setOp_unitErr (o : TopOp) : (s.setOp o).unitErr = s.unitErr := rfl
@[simp] theorem setOp_inputs (o : TopOp) : (s.setOp o).inputs = s.inputs := rfl
@[simp] theorem setOp_fresh (o : TopOp) : (s.setOp o).fresh = s.fresh := rfl

/-! setBusy -/

@[simp] theorem setBusy_params : (s.setBusy).params = s.params := rfl
@[simp] theorem setBusy_op : (s.setBusy).op = s.op := rfl
@[simp] theorem setBusy_phase : (s.setBusy).phase = s.phase := rfl
@[simp] theorem setBusy_busy : (s.setBusy).busy = true := rfl
@[simp] theorem setBusy_done : (s.setBusy).done = s.done := rfl
@[simp] theorem setBusy_err : (s.setBusy).err = s.err := rfl
@[simp] theorem setBusy_errinfo : (s.setBusy).errinfo = s.errinfo := rfl
@[simp] theorem setBusy_ilen : (s.setBusy).ilen = s.ilen := rfl
@[simp] theorem setBusy_olen : (s.setBusy).olen = s.olen := rfl
@[simp] theorem setBusy_ibuf : (s.setBusy).ibuf = s.ibuf := rfl
@[simp] theorem setBusy_obuf : (s.setBusy).obuf = s.obuf := rfl
@[simp] theorem setBusy_payload : (s.setBusy).payload = s.payload := rfl
@[simp] theorem setBusy_plen : (s.setBusy).plen = s.plen := rfl
@[simp] theorem setBusy_vbc : (s.setBusy).vbc = s.vbc := rfl
@[simp] theorem setBusy_pqArgv : (s.setBusy).pqArgv = s.pqArgv := rfl
@[simp] theorem setBusy_pqArgi : (s.setBusy).pqArgi = s.pqArgi := rfl
@[simp] theorem setBusy_pqRes : (s.setBusy).pqRes = s.pqRes := rfl
@[simp] theorem setBusy_pqItems : (s.setBusy).pqItems = s.pqItems := rfl
@[simp] theorem setBusy_heap : (s.setBusy).heap = s.heap := rfl
@[simp] theorem setBusy_freq : (s.setBusy).freq = s.freq := rfl
@[simp] theorem setBusy_arena : (s.setBusy).arena = s.arena := rfl
@[simp] theorem setBusy_root : (s.setBusy).root = s.root := rfl
@[simp] theorem setBusy_code : (s.setBusy).code = s.code := rfl
@[simp] theorem setBusy_rev : (s.setBusy).rev = s.rev := rfl
@[simp] theorem setBusy_acc : (s.setBusy).acc = s.acc := rfl
@[simp] theorem setBusy_pkByte : (s.setBusy).pkByte = s.pkByte := rfl
@[simp] theorem setBusy_pkCnt : (s.setBusy).pkCnt = s.pkCnt := rfl
@[simp] theorem setBusy_rpos : (s.setBusy).rpos = s.rpos := rfl
@[simp] theorem setBusy_wpos : (s.setBusy).wpos = s.wpos := rfl
@[simp] theorem setBusy_bitpos : (s.setBusy).bitpos = s.bitpos := rfl
@[simp] theorem setBusy_unitErr : (s.setBusy).unitErr = s.unitErr := rfl
@[simp] theorem setBusy_inputs : (s.setBusy).inputs = s.inputs := rfl
@[simp] theorem setBusy_fresh : (s.setBusy).fresh = s.fresh := rfl

/-! clearReport -/

@[simp] theorem clearReport_params : (s.clearReport).params = s.params := rfl
@[simp] theorem clearReport_op : (s.clearReport).op = s.op := rfl
@[simp] theorem clearReport_phase : (s.clearReport).phase = s.phase := rfl
@[simp] theorem clearReport_busy : (s.clearReport).busy = s.busy := rfl
@[simp] theorem clearReport_done : (s.clearReport).done = false := rfl
@[simp] theorem clearReport_err : (s.clearReport).err = false := rfl
@[simp] theorem clearReport_errinfo : (s.clearReport).errinfo = 0#32 := rfl
@[simp] theorem clearReport_ilen : (s.clearReport).ilen = s.ilen := rfl
@[simp] theorem clearReport_olen : (s.clearReport).olen = 0#32 := rfl
@[simp] theorem clearReport_ibuf : (s.clearReport).ibuf = s.ibuf := rfl
@[simp] theorem clearReport_obuf : (s.clearReport).obuf = s.obuf := rfl
@[simp] theorem clearReport_payload : (s.clearReport).payload = s.payload := rfl
@[simp] theorem clearReport_plen : (s.clearReport).plen = s.plen := rfl
@[simp] theorem clearReport_vbc : (s.clearReport).vbc = s.vbc := rfl
@[simp] theorem clearReport_pqArgv : (s.clearReport).pqArgv = s.pqArgv := rfl
@[simp] theorem clearReport_pqArgi : (s.clearReport).pqArgi = s.pqArgi := rfl
@[simp] theorem clearReport_pqRes : (s.clearReport).pqRes = s.pqRes := rfl
@[simp] theorem clearReport_pqItems : (s.clearReport).pqItems = s.pqItems := rfl
@[simp] theorem clearReport_heap : (s.clearReport).heap = s.heap := rfl
@[simp] theorem clearReport_freq : (s.clearReport).freq = s.freq := rfl
@[simp] theorem clearReport_arena : (s.clearReport).arena = s.arena := rfl
@[simp] theorem clearReport_root : (s.clearReport).root = s.root := rfl
@[simp] theorem clearReport_code : (s.clearReport).code = s.code := rfl
@[simp] theorem clearReport_rev : (s.clearReport).rev = s.rev := rfl
@[simp] theorem clearReport_acc : (s.clearReport).acc = s.acc := rfl
@[simp] theorem clearReport_pkByte : (s.clearReport).pkByte = s.pkByte := rfl
@[simp] theorem clearReport_pkCnt : (s.clearReport).pkCnt = s.pkCnt := rfl
@[simp] theorem clearReport_rpos : (s.clearReport).rpos = s.rpos := rfl
@[simp] theorem clearReport_wpos : (s.clearReport).wpos = s.wpos := rfl
@[simp] theorem clearReport_bitpos : (s.clearReport).bitpos = s.bitpos := rfl
@[simp] theorem clearReport_unitErr : (s.clearReport).unitErr = s.unitErr := rfl
@[simp] theorem clearReport_inputs : (s.clearReport).inputs = s.inputs := rfl
@[simp] theorem clearReport_fresh : (s.clearReport).fresh = s.fresh := rfl

/-! complete -/

@[simp] theorem complete_params : (s.complete).params = s.params := rfl
@[simp] theorem complete_op : (s.complete).op = .idle := rfl
@[simp] theorem complete_phase : (s.complete).phase = .idle := rfl
@[simp] theorem complete_busy : (s.complete).busy = false := rfl
@[simp] theorem complete_done : (s.complete).done = true := rfl
@[simp] theorem complete_err : (s.complete).err = s.err := rfl
@[simp] theorem complete_errinfo : (s.complete).errinfo = s.errinfo := rfl
@[simp] theorem complete_ilen : (s.complete).ilen = s.ilen := rfl
@[simp] theorem complete_olen : (s.complete).olen = s.olen := rfl
@[simp] theorem complete_ibuf : (s.complete).ibuf = s.ibuf := rfl
@[simp] theorem complete_obuf : (s.complete).obuf = s.obuf := rfl
@[simp] theorem complete_payload : (s.complete).payload = s.payload := rfl
@[simp] theorem complete_plen : (s.complete).plen = s.plen := rfl
@[simp] theorem complete_vbc : (s.complete).vbc = s.vbc := rfl
@[simp] theorem complete_pqArgv : (s.complete).pqArgv = s.pqArgv := rfl
@[simp] theorem complete_pqArgi : (s.complete).pqArgi = s.pqArgi := rfl
@[simp] theorem complete_pqRes : (s.complete).pqRes = s.pqRes := rfl
@[simp] theorem complete_pqItems : (s.complete).pqItems = s.pqItems := rfl
@[simp] theorem complete_heap : (s.complete).heap = s.heap := rfl
@[simp] theorem complete_freq : (s.complete).freq = s.freq := rfl
@[simp] theorem complete_arena : (s.complete).arena = s.arena := rfl
@[simp] theorem complete_root : (s.complete).root = s.root := rfl
@[simp] theorem complete_code : (s.complete).code = s.code := rfl
@[simp] theorem complete_rev : (s.complete).rev = s.rev := rfl
@[simp] theorem complete_acc : (s.complete).acc = s.acc := rfl
@[simp] theorem complete_pkByte : (s.complete).pkByte = s.pkByte := rfl
@[simp] theorem complete_pkCnt : (s.complete).pkCnt = s.pkCnt := rfl
@[simp] theorem complete_rpos : (s.complete).rpos = s.rpos := rfl
@[simp] theorem complete_wpos : (s.complete).wpos = s.wpos := rfl
@[simp] theorem complete_bitpos : (s.complete).bitpos = s.bitpos := rfl
@[simp] theorem complete_unitErr : (s.complete).unitErr = s.unitErr := rfl
@[simp] theorem complete_inputs : (s.complete).inputs = s.inputs := rfl
@[simp] theorem complete_fresh : (s.complete).fresh = s.fresh := rfl

/-! setOlen -/

@[simp] theorem setOlen_params : (s.setOlen).params = s.params := rfl
@[simp] theorem setOlen_op : (s.setOlen).op = s.op := rfl
@[simp] theorem setOlen_phase : (s.setOlen).phase = s.phase := rfl
@[simp] theorem setOlen_busy : (s.setOlen).busy = s.busy := rfl
@[simp] theorem setOlen_done : (s.setOlen).done = s.done := rfl
@[simp] theorem setOlen_err : (s.setOlen).err = s.err := rfl
@[simp] theorem setOlen_errinfo : (s.setOlen).errinfo = s.errinfo := rfl
@[simp] theorem setOlen_ilen : (s.setOlen).ilen = s.ilen := rfl
@[simp] theorem setOlen_olen : (s.setOlen).olen = BitVec.ofNat 32 s.wpos := rfl
@[simp] theorem setOlen_ibuf : (s.setOlen).ibuf = s.ibuf := rfl
@[simp] theorem setOlen_obuf : (s.setOlen).obuf = s.obuf := rfl
@[simp] theorem setOlen_payload : (s.setOlen).payload = s.payload := rfl
@[simp] theorem setOlen_plen : (s.setOlen).plen = s.plen := rfl
@[simp] theorem setOlen_vbc : (s.setOlen).vbc = s.vbc := rfl
@[simp] theorem setOlen_pqArgv : (s.setOlen).pqArgv = s.pqArgv := rfl
@[simp] theorem setOlen_pqArgi : (s.setOlen).pqArgi = s.pqArgi := rfl
@[simp] theorem setOlen_pqRes : (s.setOlen).pqRes = s.pqRes := rfl
@[simp] theorem setOlen_pqItems : (s.setOlen).pqItems = s.pqItems := rfl
@[simp] theorem setOlen_heap : (s.setOlen).heap = s.heap := rfl
@[simp] theorem setOlen_freq : (s.setOlen).freq = s.freq := rfl
@[simp] theorem setOlen_arena : (s.setOlen).arena = s.arena := rfl
@[simp] theorem setOlen_root : (s.setOlen).root = s.root := rfl
@[simp] theorem setOlen_code : (s.setOlen).code = s.code := rfl
@[simp] theorem setOlen_rev : (s.setOlen).rev = s.rev := rfl
@[simp] theorem setOlen_acc : (s.setOlen).acc = s.acc := rfl
@[simp] theorem setOlen_pkByte : (s.setOlen).pkByte = s.pkByte := rfl
@[simp] theorem setOlen_pkCnt : (s.setOlen).pkCnt = s.pkCnt := rfl
@[simp] theorem setOlen_rpos : (s.setOlen).rpos = s.rpos := rfl
@[simp] theorem setOlen_wpos : (s.setOlen).wpos = s.wpos := rfl
@[simp] theorem setOlen_bitpos : (s.setOlen).bitpos = s.bitpos := rfl
@[simp] theorem setOlen_unitErr : (s.setOlen).unitErr = s.unitErr := rfl
@[simp] theorem setOlen_inputs : (s.setOlen).inputs = s.inputs := rfl
@[simp] theorem setOlen_fresh : (s.setOlen).fresh = s.fresh := rfl

/-! setResult -/

@[simp] theorem setResult_params (r : Option Err) : (s.setResult r).params = s.params := rfl
@[simp] theorem setResult_op (r : Option Err) : (s.setResult r).op = s.op := rfl
@[simp] theorem setResult_phase (r : Option Err) : (s.setResult r).phase = s.phase := rfl
@[simp] theorem setResult_busy (r : Option Err) : (s.setResult r).busy = s.busy := rfl
@[simp] theorem setResult_done (r : Option Err) : (s.setResult r).done = s.done := rfl
@[simp] theorem setResult_err (r : Option Err) : (s.setResult r).err = s.err := rfl
@[simp] theorem setResult_errinfo (r : Option Err) : (s.setResult r).errinfo = s.errinfo := rfl
@[simp] theorem setResult_ilen (r : Option Err) : (s.setResult r).ilen = s.ilen := rfl
@[simp] theorem setResult_olen (r : Option Err) : (s.setResult r).olen = s.olen := rfl
@[simp] theorem setResult_ibuf (r : Option Err) : (s.setResult r).ibuf = s.ibuf := rfl
@[simp] theorem setResult_obuf (r : Option Err) : (s.setResult r).obuf = s.obuf := rfl
@[simp] theorem setResult_payload (r : Option Err) : (s.setResult r).payload = s.payload := rfl
@[simp] theorem setResult_plen (r : Option Err) : (s.setResult r).plen = s.plen := rfl
@[simp] theorem setResult_vbc (r : Option Err) : (s.setResult r).vbc = s.vbc := rfl
@[simp] theorem setResult_pqArgv (r : Option Err) : (s.setResult r).pqArgv = s.pqArgv := rfl
@[simp] theorem setResult_pqArgi (r : Option Err) : (s.setResult r).pqArgi = s.pqArgi := rfl
@[simp] theorem setResult_pqRes (r : Option Err) : (s.setResult r).pqRes = s.pqRes := rfl
@[simp] theorem setResult_pqItems (r : Option Err) : (s.setResult r).pqItems = s.pqItems := rfl
@[simp] theorem setResult_heap (r : Option Err) : (s.setResult r).heap = s.heap := rfl
@[simp] theorem setResult_freq (r : Option Err) : (s.setResult r).freq = s.freq := rfl
@[simp] theorem setResult_arena (r : Option Err) : (s.setResult r).arena = s.arena := rfl
@[simp] theorem setResult_root (r : Option Err) : (s.setResult r).root = s.root := rfl
@[simp] theorem setResult_code (r : Option Err) : (s.setResult r).code = s.code := rfl
@[simp] theorem setResult_rev (r : Option Err) : (s.setResult r).rev = s.rev := rfl
@[simp] theorem setResult_acc (r : Option Err) : (s.setResult r).acc = s.acc := rfl
@[simp] theorem setResult_pkByte (r : Option Err) : (s.setResult r).pkByte = s.pkByte := rfl
@[simp] theorem setResult_pkCnt (r : Option Err) : (s.setResult r).pkCnt = s.pkCnt := rfl
@[simp] theorem setResult_rpos (r : Option Err) : (s.setResult r).rpos = s.rpos := rfl
@[simp] theorem setResult_wpos (r : Option Err) : (s.setResult r).wpos = s.wpos := rfl
@[simp] theorem setResult_bitpos (r : Option Err) : (s.setResult r).bitpos = s.bitpos := rfl
@[simp] theorem setResult_unitErr (r : Option Err) : (s.setResult r).unitErr = r := rfl
@[simp] theorem setResult_inputs (r : Option Err) : (s.setResult r).inputs = s.inputs := rfl
@[simp] theorem setResult_fresh (r : Option Err) : (s.setResult r).fresh = s.fresh := rfl

/-! nextDraw -/

@[simp] theorem nextDraw_params : (s.nextDraw).params = s.params := rfl
@[simp] theorem nextDraw_op : (s.nextDraw).op = s.op := rfl
@[simp] theorem nextDraw_phase : (s.nextDraw).phase = s.phase := rfl
@[simp] theorem nextDraw_busy : (s.nextDraw).busy = s.busy := rfl
@[simp] theorem nextDraw_done : (s.nextDraw).done = s.done := rfl
@[simp] theorem nextDraw_err : (s.nextDraw).err = s.err := rfl
@[simp] theorem nextDraw_errinfo : (s.nextDraw).errinfo = s.errinfo := rfl
@[simp] theorem nextDraw_ilen : (s.nextDraw).ilen = s.ilen := rfl
@[simp] theorem nextDraw_olen : (s.nextDraw).olen = s.olen := rfl
@[simp] theorem nextDraw_ibuf : (s.nextDraw).ibuf = s.ibuf := rfl
@[simp] theorem nextDraw_obuf : (s.nextDraw).obuf = s.obuf := rfl
@[simp] theorem nextDraw_payload : (s.nextDraw).payload = s.payload := rfl
@[simp] theorem nextDraw_plen : (s.nextDraw).plen = s.plen := rfl
@[simp] theorem nextDraw_vbc : (s.nextDraw).vbc = s.vbc := rfl
@[simp] theorem nextDraw_pqArgv : (s.nextDraw).pqArgv = s.pqArgv := rfl
@[simp] theorem nextDraw_pqArgi : (s.nextDraw).pqArgi = s.pqArgi := rfl
@[simp] theorem nextDraw_pqRes : (s.nextDraw).pqRes = s.pqRes := rfl
@[simp] theorem nextDraw_pqItems : (s.nextDraw).pqItems = s.pqItems := rfl
@[simp] theorem nextDraw_heap : (s.nextDraw).heap = s.heap := rfl
@[simp] theorem nextDraw_freq : (s.nextDraw).freq = s.freq := rfl
@[simp] theorem nextDraw_arena : (s.nextDraw).arena = s.arena := rfl
@[simp] theorem nextDraw_root : (s.nextDraw).root = s.root := rfl
@[simp] theorem nextDraw_code : (s.nextDraw).code = s.code := rfl
@[simp] theorem nextDraw_rev : (s.nextDraw).rev = s.rev := rfl
@[simp] theorem nextDraw_acc : (s.nextDraw).acc = s.acc := rfl
@[simp] theorem nextDraw_pkByte : (s.nextDraw).pkByte = s.pkByte := rfl
@[simp] theorem nextDraw_pkCnt : (s.nextDraw).pkCnt = s.pkCnt := rfl
@[simp] theorem nextDraw_rpos : (s.nextDraw).rpos = s.rpos := rfl
@[simp] theorem nextDraw_wpos : (s.nextDraw).wpos = s.wpos := rfl
@[simp] theorem nextDraw_bitpos : (s.nextDraw).bitpos = s.bitpos := rfl
@[simp] theorem nextDraw_unitErr : (s.nextDraw).unitErr = s.unitErr := rfl
@[simp] theorem nextDraw_inputs : (s.nextDraw).inputs = s.inputs := rfl
@[simp] theorem nextDraw_fresh : (s.nextDraw).fresh = s.fresh + 1 := rfl

/-! reportError -/

@[simp] theorem reportError_params (e : Err) : (s.reportError e).params = s.params := rfl
@[simp] theorem reportError_op (e : Err) : (s.reportError e).op = .idle := rfl
@[simp] theorem reportError_phase (e : Err) : (s.reportError e).phase = .idle := rfl
@[simp] theorem reportError_busy (e : Err) : (s.reportError e).busy = false := rfl
@[simp] theorem reportError_done (e : Err) : (s.reportError e).done = false := rfl
@[simp] theorem reportError_err (e : Err) : (s.reportError e).err = true := rfl
@[simp] theorem reportError_errinfo (e : Err) :
    (s.reportError e).errinfo = errInfoWord e s.phase s.op := rfl
@[simp] theorem reportError_ilen (e : Err) : (s.reportError e).ilen = s.ilen := rfl
@[simp] theorem reportError_olen (e : Err) : (s.reportError e).olen = 0#32 := rfl
@[simp] theorem reportError_ibuf (e : Err) : (s.reportError e).ibuf = s.ibuf := rfl
@[simp] theorem reportError_obuf (e : Err) : (s.reportError e).obuf = s.obuf := rfl
@[simp] theorem reportError_payload (e : Err) : (s.reportError e).payload = s.payload := rfl
@[simp] theorem reportError_plen (e : Err) : (s.reportError e).plen = s.plen := rfl
@[simp] theorem reportError_vbc (e : Err) : (s.reportError e).vbc = s.vbc := rfl
@[simp] theorem reportError_pqArgv (e : Err) : (s.reportError e).pqArgv = s.pqArgv := rfl
@[simp] theorem reportError_pqArgi (e : Err) : (s.reportError e).pqArgi = s.pqArgi := rfl
@[simp] theorem reportError_pqRes (e : Err) : (s.reportError e).pqRes = s.pqRes := rfl
@[simp] theorem reportError_pqItems (e : Err) : (s.reportError e).pqItems = s.pqItems := rfl
@[simp] theorem reportError_heap (e : Err) : (s.reportError e).heap = s.heap := rfl
@[simp] theorem reportError_freq (e : Err) : (s.reportError e).freq = s.freq := rfl
@[simp] theorem reportError_arena (e : Err) : (s.reportError e).arena = s.arena := rfl
@[simp] theorem reportError_root (e : Err) : (s.reportError e).root = s.root := rfl
@[simp] theorem reportError_code (e : Err) : (s.reportError e).code = s.code := rfl
@[simp] theorem reportError_rev (e : Err) : (s.reportError e).rev = s.rev := rfl
@[simp] theorem reportError_acc (e : Err) : (s.reportError e).acc = s.acc := rfl
@[simp] theorem reportError_pkByte (e : Err) : (s.reportError e).pkByte = s.pkByte := rfl
@[simp] theorem reportError_pkCnt (e : Err) : (s.reportError e).pkCnt = s.pkCnt := rfl
@[simp] theorem reportError_rpos (e : Err) : (s.reportError e).rpos = s.rpos := rfl
@[simp] theorem reportError_wpos (e : Err) : (s.reportError e).wpos = s.wpos := rfl
@[simp] theorem reportError_bitpos (e : Err) : (s.reportError e).bitpos = s.bitpos := rfl
@[simp] theorem reportError_unitErr (e : Err) : (s.reportError e).unitErr = s.unitErr := rfl
@[simp] theorem reportError_inputs (e : Err) : (s.reportError e).inputs = s.inputs := rfl
@[simp] theorem reportError_fresh (e : Err) : (s.reportError e).fresh = s.fresh := rfl

/-! spoilObuf -/

@[simp] theorem spoilObuf_params : (s.spoilObuf).params = s.params := rfl
@[simp] theorem spoilObuf_op : (s.spoilObuf).op = s.op := rfl
@[simp] theorem spoilObuf_phase : (s.spoilObuf).phase = s.phase := rfl
@[simp] theorem spoilObuf_busy : (s.spoilObuf).busy = s.busy := rfl
@[simp] theorem spoilObuf_done : (s.spoilObuf).done = s.done := rfl
@[simp] theorem spoilObuf_err : (s.spoilObuf).err = s.err := rfl
@[simp] theorem spoilObuf_errinfo : (s.spoilObuf).errinfo = s.errinfo := rfl
@[simp] theorem spoilObuf_ilen : (s.spoilObuf).ilen = s.ilen := rfl
@[simp] theorem spoilObuf_olen : (s.spoilObuf).olen = s.olen := rfl
@[simp] theorem spoilObuf_ibuf : (s.spoilObuf).ibuf = s.ibuf := rfl
@[simp] theorem spoilObuf_obuf : (s.spoilObuf).obuf = Mem.scrubbed s.fresh := rfl
@[simp] theorem spoilObuf_payload : (s.spoilObuf).payload = s.payload := rfl
@[simp] theorem spoilObuf_plen : (s.spoilObuf).plen = s.plen := rfl
@[simp] theorem spoilObuf_vbc : (s.spoilObuf).vbc = s.vbc := rfl
@[simp] theorem spoilObuf_pqArgv : (s.spoilObuf).pqArgv = s.pqArgv := rfl
@[simp] theorem spoilObuf_pqArgi : (s.spoilObuf).pqArgi = s.pqArgi := rfl
@[simp] theorem spoilObuf_pqRes : (s.spoilObuf).pqRes = s.pqRes := rfl
@[simp] theorem spoilObuf_pqItems : (s.spoilObuf).pqItems = s.pqItems := rfl
@[simp] theorem spoilObuf_heap : (s.spoilObuf).heap = s.heap := rfl
@[simp] theorem spoilObuf_freq : (s.spoilObuf).freq = s.freq := rfl
@[simp] theorem spoilObuf_arena : (s.spoilObuf).arena = s.arena := rfl
@[simp] theorem spoilObuf_root : (s.spoilObuf).root = s.root := rfl
@[simp] theorem spoilObuf_code : (s.spoilObuf).code = s.code := rfl
@[simp] theorem spoilObuf_rev : (s.spoilObuf).rev = s.rev := rfl
@[simp] theorem spoilObuf_acc : (s.spoilObuf).acc = s.acc := rfl
@[simp] theorem spoilObuf_pkByte : (s.spoilObuf).pkByte = s.pkByte := rfl
@[simp] theorem spoilObuf_pkCnt : (s.spoilObuf).pkCnt = s.pkCnt := rfl
@[simp] theorem spoilObuf_rpos : (s.spoilObuf).rpos = s.rpos := rfl
@[simp] theorem spoilObuf_wpos : (s.spoilObuf).wpos = s.wpos := rfl
@[simp] theorem spoilObuf_bitpos : (s.spoilObuf).bitpos = s.bitpos := rfl
@[simp] theorem spoilObuf_unitErr : (s.spoilObuf).unitErr = s.unitErr := rfl
@[simp] theorem spoilObuf_inputs : (s.spoilObuf).inputs = s.inputs := rfl
@[simp] theorem spoilObuf_fresh : (s.spoilObuf).fresh = s.fresh := rfl

/-! spoilRev -/

@[simp] theorem spoilRev_params : (s.spoilRev).params = s.params := rfl
@[simp] theorem spoilRev_op : (s.spoilRev).op = s.op := rfl
@[simp] theorem spoilRev_phase : (s.spoilRev).phase = s.phase := rfl
@[simp] theorem spoilRev_busy : (s.spoilRev).busy = s.busy := rfl
@[simp] theorem spoilRev_done : (s.spoilRev).done = s.done := rfl
@[simp] theorem spoilRev_err : (s.spoilRev).err = s.err := rfl
@[simp] theorem spoilRev_errinfo : (s.spoilRev).errinfo = s.errinfo := rfl
@[simp] theorem spoilRev_ilen : (s.spoilRev).ilen = s.ilen := rfl
@[simp] theorem spoilRev_olen : (s.spoilRev).olen = s.olen := rfl
@[simp] theorem spoilRev_ibuf : (s.spoilRev).ibuf = s.ibuf := rfl
@[simp] theorem spoilRev_obuf : (s.spoilRev).obuf = s.obuf := rfl
@[simp] theorem spoilRev_payload : (s.spoilRev).payload = s.payload := rfl
@[simp] theorem spoilRev_plen : (s.spoilRev).plen = s.plen := rfl
@[simp] theorem spoilRev_vbc : (s.spoilRev).vbc = s.vbc := rfl
@[simp] theorem spoilRev_pqArgv : (s.spoilRev).pqArgv = s.pqArgv := rfl
@[simp] theorem spoilRev_pqArgi : (s.spoilRev).pqArgi = s.pqArgi := rfl
@[simp] theorem spoilRev_pqRes : (s.spoilRev).pqRes = s.pqRes := rfl
@[simp] theorem spoilRev_pqItems : (s.spoilRev).pqItems = s.pqItems := rfl
@[simp] theorem spoilRev_heap : (s.spoilRev).heap = s.heap := rfl
@[simp] theorem spoilRev_freq : (s.spoilRev).freq = s.freq := rfl
@[simp] theorem spoilRev_arena : (s.spoilRev).arena = s.arena := rfl
@[simp] theorem spoilRev_root : (s.spoilRev).root = s.root := rfl
@[simp] theorem spoilRev_code : (s.spoilRev).code = s.code := rfl
@[simp] theorem spoilRev_acc : (s.spoilRev).acc = s.acc := rfl
@[simp] theorem spoilRev_pkByte : (s.spoilRev).pkByte = s.pkByte := rfl
@[simp] theorem spoilRev_pkCnt : (s.spoilRev).pkCnt = s.pkCnt := rfl
@[simp] theorem spoilRev_rpos : (s.spoilRev).rpos = s.rpos := rfl
@[simp] theorem spoilRev_wpos : (s.spoilRev).wpos = s.wpos := rfl
@[simp] theorem spoilRev_bitpos : (s.spoilRev).bitpos = s.bitpos := rfl
@[simp] theorem spoilRev_unitErr : (s.spoilRev).unitErr = s.unitErr := rfl
@[simp] theorem spoilRev_inputs : (s.spoilRev).inputs = s.inputs := rfl
@[simp] theorem spoilRev_fresh : (s.spoilRev).fresh = s.fresh := rfl

/-! spoilPayload -/

@[simp] theorem spoilPayload_params : (s.spoilPayload).params = s.params := rfl
@[simp] theorem spoilPayload_op : (s.spoilPayload).op = s.op := rfl
@[simp] theorem spoilPayload_phase : (s.spoilPayload).phase = s.phase := rfl
@[simp] theorem spoilPayload_busy : (s.spoilPayload).busy = s.busy := rfl
@[simp] theorem spoilPayload_done : (s.spoilPayload).done = s.done := rfl
@[simp] theorem spoilPayload_err : (s.spoilPayload).err = s.err := rfl
@[simp] theorem spoilPayload_errinfo : (s.spoilPayload).errinfo = s.errinfo := rfl
@[simp] theorem spoilPayload_ilen : (s.spoilPayload).ilen = s.ilen := rfl
@[simp] theorem spoilPayload_olen : (s.spoilPayload).olen = s.olen := rfl
@[simp] theorem spoilPayload_ibuf : (s.spoilPayload).ibuf = s.ibuf := rfl
@[simp] theorem spoilPayload_obuf : (s.spoilPayload).obuf = s.obuf := rfl
@[simp] theorem spoilPayload_payload : (s.spoilPayload).payload = Mem.scrubbed s.fresh := rfl
@[simp] theorem spoilPayload_plen : (s.spoilPayload).plen = Config.freeWord s.fresh 257 := rfl
@[simp] theorem spoilPayload_vbc : (s.spoilPayload).vbc = Config.freeWord s.fresh 256 := rfl
@[simp] theorem spoilPayload_pqArgv : (s.spoilPayload).pqArgv = s.pqArgv := rfl
@[simp] theorem spoilPayload_pqArgi : (s.spoilPayload).pqArgi = s.pqArgi := rfl
@[simp] theorem spoilPayload_pqRes : (s.spoilPayload).pqRes = s.pqRes := rfl
@[simp] theorem spoilPayload_pqItems : (s.spoilPayload).pqItems = s.pqItems := rfl
@[simp] theorem spoilPayload_heap : (s.spoilPayload).heap = s.heap := rfl
@[simp] theorem spoilPayload_freq : (s.spoilPayload).freq = s.freq := rfl
@[simp] theorem spoilPayload_arena : (s.spoilPayload).arena = s.arena := rfl
@[simp] theorem spoilPayload_root : (s.spoilPayload).root = s.root := rfl
@[simp] theorem spoilPayload_code : (s.spoilPayload).code = s.code := rfl
@[simp] theorem spoilPayload_rev : (s.spoilPayload).rev = s.rev := rfl
@[simp] theorem spoilPayload_acc : (s.spoilPayload).acc = s.acc := rfl
@[simp] theorem spoilPayload_pkByte : (s.spoilPayload).pkByte = s.pkByte := rfl
@[simp] theorem spoilPayload_pkCnt : (s.spoilPayload).pkCnt = s.pkCnt := rfl
@[simp] theorem spoilPayload_rpos : (s.spoilPayload).rpos = s.rpos := rfl
@[simp] theorem spoilPayload_wpos : (s.spoilPayload).wpos = s.wpos := rfl
@[simp] theorem spoilPayload_bitpos : (s.spoilPayload).bitpos = s.bitpos := rfl
@[simp] theorem spoilPayload_unitErr : (s.spoilPayload).unitErr = s.unitErr := rfl
@[simp] theorem spoilPayload_inputs : (s.spoilPayload).inputs = s.inputs := rfl
@[simp] theorem spoilPayload_fresh : (s.spoilPayload).fresh = s.fresh := rfl

/-! spoilAcc -/

@[simp] theorem spoilAcc_params : (s.spoilAcc).params = s.params := rfl
@[simp] theorem spoilAcc_op : (s.spoilAcc).op = s.op := rfl
@[simp] theorem spoilAcc_phase : (s.spoilAcc).phase = s.phase := rfl
@[simp] theorem spoilAcc_busy : (s.spoilAcc).busy = s.busy := rfl
@[simp] theorem spoilAcc_done : (s.spoilAcc).done = s.done := rfl
@[simp] theorem spoilAcc_err : (s.spoilAcc).err = s.err := rfl
@[simp] theorem spoilAcc_errinfo : (s.spoilAcc).errinfo = s.errinfo := rfl
@[simp] theorem spoilAcc_ilen : (s.spoilAcc).ilen = s.ilen := rfl
@[simp] theorem spoilAcc_olen : (s.spoilAcc).olen = s.olen := rfl
@[simp] theorem spoilAcc_ibuf : (s.spoilAcc).ibuf = s.ibuf := rfl
@[simp] theorem spoilAcc_obuf : (s.spoilAcc).obuf = s.obuf := rfl
@[simp] theorem spoilAcc_payload : (s.spoilAcc).payload = s.payload := rfl
@[simp] theorem spoilAcc_plen : (s.spoilAcc).plen = s.plen := rfl
@[simp] theorem spoilAcc_vbc : (s.spoilAcc).vbc = s.vbc := rfl
@[simp] theorem spoilAcc_pqArgv : (s.spoilAcc).pqArgv = s.pqArgv := rfl
@[simp] theorem spoilAcc_pqArgi : (s.spoilAcc).pqArgi = s.pqArgi := rfl
@[simp] theorem spoilAcc_pqRes : (s.spoilAcc).pqRes = s.pqRes := rfl
@[simp] theorem spoilAcc_pqItems : (s.spoilAcc).pqItems = s.pqItems := rfl
@[simp] theorem spoilAcc_heap : (s.spoilAcc).heap = s.heap := rfl
@[simp] theorem spoilAcc_freq : (s.spoilAcc).freq = s.freq := rfl
@[simp] theorem spoilAcc_arena : (s.spoilAcc).arena = s.arena := rfl
@[simp] theorem spoilAcc_root : (s.spoilAcc).root = s.root := rfl
@[simp] theorem spoilAcc_code : (s.spoilAcc).code = s.code := rfl
@[simp] theorem spoilAcc_rev : (s.spoilAcc).rev = s.rev := rfl
@[simp] theorem spoilAcc_acc :
    (s.spoilAcc).acc = (Config.freeBits s.fresh 256).take Config.maxBitCount := rfl
@[simp] theorem spoilAcc_pkByte : (s.spoilAcc).pkByte = s.pkByte := rfl
@[simp] theorem spoilAcc_pkCnt : (s.spoilAcc).pkCnt = s.pkCnt := rfl
@[simp] theorem spoilAcc_rpos : (s.spoilAcc).rpos = s.rpos := rfl
@[simp] theorem spoilAcc_wpos : (s.spoilAcc).wpos = s.wpos := rfl
@[simp] theorem spoilAcc_bitpos : (s.spoilAcc).bitpos = s.bitpos := rfl
@[simp] theorem spoilAcc_unitErr : (s.spoilAcc).unitErr = s.unitErr := rfl
@[simp] theorem spoilAcc_inputs : (s.spoilAcc).inputs = s.inputs := rfl
@[simp] theorem spoilAcc_fresh : (s.spoilAcc).fresh = s.fresh := rfl

/-! spoilWpos -/

@[simp] theorem spoilWpos_params : (s.spoilWpos).params = s.params := rfl
@[simp] theorem spoilWpos_op : (s.spoilWpos).op = s.op := rfl
@[simp] theorem spoilWpos_phase : (s.spoilWpos).phase = s.phase := rfl
@[simp] theorem spoilWpos_busy : (s.spoilWpos).busy = s.busy := rfl
@[simp] theorem spoilWpos_done : (s.spoilWpos).done = s.done := rfl
@[simp] theorem spoilWpos_err : (s.spoilWpos).err = s.err := rfl
@[simp] theorem spoilWpos_errinfo : (s.spoilWpos).errinfo = s.errinfo := rfl
@[simp] theorem spoilWpos_ilen : (s.spoilWpos).ilen = s.ilen := rfl
@[simp] theorem spoilWpos_olen : (s.spoilWpos).olen = s.olen := rfl
@[simp] theorem spoilWpos_ibuf : (s.spoilWpos).ibuf = s.ibuf := rfl
@[simp] theorem spoilWpos_obuf : (s.spoilWpos).obuf = s.obuf := rfl
@[simp] theorem spoilWpos_payload : (s.spoilWpos).payload = s.payload := rfl
@[simp] theorem spoilWpos_plen : (s.spoilWpos).plen = s.plen := rfl
@[simp] theorem spoilWpos_vbc : (s.spoilWpos).vbc = s.vbc := rfl
@[simp] theorem spoilWpos_pqArgv : (s.spoilWpos).pqArgv = s.pqArgv := rfl
@[simp] theorem spoilWpos_pqArgi : (s.spoilWpos).pqArgi = s.pqArgi := rfl
@[simp] theorem spoilWpos_pqRes : (s.spoilWpos).pqRes = s.pqRes := rfl
@[simp] theorem spoilWpos_pqItems : (s.spoilWpos).pqItems = s.pqItems := rfl
@[simp] theorem spoilWpos_heap : (s.spoilWpos).heap = s.heap := rfl
@[simp] theorem spoilWpos_freq : (s.spoilWpos).freq = s.freq := rfl
@[simp] theorem spoilWpos_arena : (s.spoilWpos).arena = s.arena := rfl
@[simp] theorem spoilWpos_root : (s.spoilWpos).root = s.root := rfl
@[simp] theorem spoilWpos_code : (s.spoilWpos).code = s.code := rfl
@[simp] theorem spoilWpos_rev : (s.spoilWpos).rev = s.rev := rfl
@[simp] theorem spoilWpos_acc : (s.spoilWpos).acc = s.acc := rfl
@[simp] theorem spoilWpos_pkByte : (s.spoilWpos).pkByte = s.pkByte := rfl
@[simp] theorem spoilWpos_pkCnt : (s.spoilWpos).pkCnt = s.pkCnt := rfl
@[simp] theorem spoilWpos_rpos : (s.spoilWpos).rpos = s.rpos := rfl
@[simp] theorem spoilWpos_wpos : (s.spoilWpos).wpos = Config.freeNat s.fresh 4 % 2 ^ 33 := rfl
@[simp] theorem spoilWpos_bitpos : (s.spoilWpos).bitpos = s.bitpos := rfl
@[simp] theorem spoilWpos_unitErr : (s.spoilWpos).unitErr = s.unitErr := rfl
@[simp] theorem spoilWpos_inputs : (s.spoilWpos).inputs = s.inputs := rfl
@[simp] theorem spoilWpos_fresh : (s.spoilWpos).fresh = s.fresh := rfl

/-! spoilFreq -/

@[simp] theorem spoilFreq_params : (s.spoilFreq).params = s.params := rfl
@[simp] theorem spoilFreq_op : (s.spoilFreq).op = s.op := rfl
@[simp] theorem spoilFreq_phase : (s.spoilFreq).phase = s.phase := rfl
@[simp] theorem spoilFreq_busy : (s.spoilFreq).busy = s.busy := rfl
@[simp] theorem spoilFreq_done : (s.spoilFreq).done = s.done := rfl
@[simp] theorem spoilFreq_err : (s.spoilFreq).err = s.err := rfl
@[simp] theorem spoilFreq_errinfo : (s.spoilFreq).errinfo = s.errinfo := rfl
@[simp] theorem spoilFreq_ilen : (s.spoilFreq).ilen = s.ilen := rfl
@[simp] theorem spoilFreq_olen : (s.spoilFreq).olen = s.olen := rfl
@[simp] theorem spoilFreq_ibuf : (s.spoilFreq).ibuf = s.ibuf := rfl
@[simp] theorem spoilFreq_obuf : (s.spoilFreq).obuf = s.obuf := rfl
@[simp] theorem spoilFreq_payload : (s.spoilFreq).payload = s.payload := rfl
@[simp] theorem spoilFreq_plen : (s.spoilFreq).plen = s.plen := rfl
@[simp] theorem spoilFreq_vbc : (s.spoilFreq).vbc = s.vbc := rfl
@[simp] theorem spoilFreq_pqArgv : (s.spoilFreq).pqArgv = s.pqArgv := rfl
@[simp] theorem spoilFreq_pqArgi : (s.spoilFreq).pqArgi = s.pqArgi := rfl
@[simp] theorem spoilFreq_pqRes : (s.spoilFreq).pqRes = s.pqRes := rfl
@[simp] theorem spoilFreq_pqItems : (s.spoilFreq).pqItems = s.pqItems := rfl
@[simp] theorem spoilFreq_heap : (s.spoilFreq).heap = s.heap := rfl
@[simp] theorem spoilFreq_arena : (s.spoilFreq).arena = s.arena := rfl
@[simp] theorem spoilFreq_root : (s.spoilFreq).root = s.root := rfl
@[simp] theorem spoilFreq_code : (s.spoilFreq).code = s.code := rfl
@[simp] theorem spoilFreq_rev : (s.spoilFreq).rev = s.rev := rfl
@[simp] theorem spoilFreq_acc : (s.spoilFreq).acc = s.acc := rfl
@[simp] theorem spoilFreq_pkByte : (s.spoilFreq).pkByte = s.pkByte := rfl
@[simp] theorem spoilFreq_pkCnt : (s.spoilFreq).pkCnt = s.pkCnt := rfl
@[simp] theorem spoilFreq_rpos : (s.spoilFreq).rpos = s.rpos := rfl
@[simp] theorem spoilFreq_wpos : (s.spoilFreq).wpos = s.wpos := rfl
@[simp] theorem spoilFreq_bitpos : (s.spoilFreq).bitpos = s.bitpos := rfl
@[simp] theorem spoilFreq_unitErr : (s.spoilFreq).unitErr = s.unitErr := rfl
@[simp] theorem spoilFreq_inputs : (s.spoilFreq).inputs = s.inputs := rfl
@[simp] theorem spoilFreq_fresh : (s.spoilFreq).fresh = s.fresh := rfl

/-! spoilTree -/

@[simp] theorem spoilTree_params : (s.spoilTree).params = s.params := rfl
@[simp] theorem spoilTree_op : (s.spoilTree).op = s.op := rfl
@[simp] theorem spoilTree_phase : (s.spoilTree).phase = s.phase := rfl
@[simp] theorem spoilTree_busy : (s.spoilTree).busy = s.busy := rfl
@[simp] theorem spoilTree_done : (s.spoilTree).done = s.done := rfl
@[simp] theorem spoilTree_err : (s.spoilTree).err = s.err := rfl
@[simp] theorem spoilTree_errinfo : (s.spoilTree).errinfo = s.errinfo := rfl
@[simp] theorem spoilTree_ilen : (s.spoilTree).ilen = s.ilen := rfl
@[simp] theorem spoilTree_olen : (s.spoilTree).olen = s.olen := rfl
@[simp] theorem spoilTree_ibuf : (s.spoilTree).ibuf = s.ibuf := rfl
@[simp] theorem spoilTree_obuf : (s.spoilTree).obuf = s.obuf := rfl
@[simp] theorem spoilTree_payload : (s.spoilTree).payload = s.payload := rfl
@[simp] theorem spoilTree_plen : (s.spoilTree).plen = s.plen := rfl
@[simp] theorem spoilTree_vbc : (s.spoilTree).vbc = s.vbc := rfl
@[simp] theorem spoilTree_pqArgv :
    (s.spoilTree).pqArgv = s.params.queue.cut (Config.freeNat s.fresh 0) := rfl
@[simp] theorem spoilTree_pqArgi : (s.spoilTree).pqArgi = Config.freeNat s.fresh 1 := rfl
@[simp] theorem spoilTree_pqRes :
    (s.spoilTree).pqRes = s.params.queue.cut (Config.freeNat s.fresh 2) := rfl
@[simp] theorem spoilTree_pqItems : (s.spoilTree).pqItems = s.pqItems := rfl
@[simp] theorem spoilTree_heap :
    (s.spoilTree).heap = ((Config.freeElems s.fresh).take s.params.queue.cap).map s.params.queue.cut := rfl
@[simp] theorem spoilTree_freq : (s.spoilTree).freq = s.freq := rfl
@[simp] theorem spoilTree_arena : (s.spoilTree).arena = (Config.freeNodes s.fresh).take 511 := rfl
@[simp] theorem spoilTree_root : (s.spoilTree).root = Config.freeRoot s.fresh := rfl
@[simp] theorem spoilTree_code : (s.spoilTree).code = s.code := rfl
@[simp] theorem spoilTree_rev : (s.spoilTree).rev = s.rev := rfl
@[simp] theorem spoilTree_acc : (s.spoilTree).acc = s.acc := rfl
@[simp] theorem spoilTree_pkByte : (s.spoilTree).pkByte = s.pkByte := rfl
@[simp] theorem spoilTree_pkCnt : (s.spoilTree).pkCnt = s.pkCnt := rfl
@[simp] theorem spoilTree_rpos : (s.spoilTree).rpos = s.rpos := rfl
@[simp] theorem spoilTree_wpos : (s.spoilTree).wpos = s.wpos := rfl
@[simp] theorem spoilTree_bitpos : (s.spoilTree).bitpos = s.bitpos := rfl
@[simp] theorem spoilTree_unitErr : (s.spoilTree).unitErr = s.unitErr := rfl
@[simp] theorem spoilTree_inputs : (s.spoilTree).inputs = s.inputs := rfl
@[simp] theorem spoilTree_fresh : (s.spoilTree).fresh = s.fresh := rfl

/-! spoilCode -/

@[simp] theorem spoilCode_params : (s.spoilCode).params = s.params := rfl
@[simp] theorem spoilCode_op : (s.spoilCode).op = s.op := rfl
@[simp] theorem spoilCode_phase : (s.spoilCode).phase = s.phase := rfl
@[simp] theorem spoilCode_busy : (s.spoilCode).busy = s.busy := rfl
@[simp] theorem spoilCode_done : (s.spoilCode).done = s.done := rfl
@[simp] theorem spoilCode_err : (s.spoilCode).err = s.err := rfl
@[simp] theorem spoilCode_errinfo : (s.spoilCode).errinfo = s.errinfo := rfl
@[simp] theorem spoilCode_ilen : (s.spoilCode).ilen = s.ilen := rfl
@[simp] theorem spoilCode_olen : (s.spoilCode).olen = s.olen := rfl
@[simp] theorem spoilCode_ibuf : (s.spoilCode).ibuf = s.ibuf := rfl
@[simp] theorem spoilCode_obuf : (s.spoilCode).obuf = s.obuf := rfl
@[simp] theorem spoilCode_payload : (s.spoilCode).payload = s.payload := rfl
@[simp] theorem spoilCode_plen : (s.spoilCode).plen = s.plen := rfl
@[simp] theorem spoilCode_vbc : (s.spoilCode).vbc = s.vbc := rfl
@[simp] theorem spoilCode_pqArgv : (s.spoilCode).pqArgv = s.pqArgv := rfl
@[simp] theorem spoilCode_pqArgi : (s.spoilCode).pqArgi = s.pqArgi := rfl
@[simp] theorem spoilCode_pqRes : (s.spoilCode).pqRes = s.pqRes := rfl
@[simp] theorem spoilCode_pqItems : (s.spoilCode).pqItems = s.pqItems := rfl
@[simp] theorem spoilCode_heap : (s.spoilCode).heap = s.heap := rfl
@[simp] theorem spoilCode_freq : (s.spoilCode).freq = s.freq := rfl
@[simp] theorem spoilCode_arena : (s.spoilCode).arena = s.arena := rfl
@[simp] theorem spoilCode_root : (s.spoilCode).root = s.root := rfl
@[simp] theorem spoilCode_rev : (s.spoilCode).rev = s.rev := rfl
@[simp] theorem spoilCode_acc : (s.spoilCode).acc = s.acc := rfl
@[simp] theorem spoilCode_pkByte : (s.spoilCode).pkByte = s.pkByte := rfl
@[simp] theorem spoilCode_pkCnt : (s.spoilCode).pkCnt = s.pkCnt := rfl
@[simp] theorem spoilCode_rpos : (s.spoilCode).rpos = s.rpos := rfl
@[simp] theorem spoilCode_wpos : (s.spoilCode).wpos = s.wpos := rfl
@[simp] theorem spoilCode_bitpos : (s.spoilCode).bitpos = s.bitpos := rfl
@[simp] theorem spoilCode_unitErr : (s.spoilCode).unitErr = s.unitErr := rfl
@[simp] theorem spoilCode_inputs : (s.spoilCode).inputs = s.inputs := rfl
@[simp] theorem spoilCode_fresh : (s.spoilCode).fresh = s.fresh := rfl

/-! spoilPacker -/

@[simp] theorem spoilPacker_params : (s.spoilPacker).params = s.params := rfl
@[simp] theorem spoilPacker_op : (s.spoilPacker).op = s.op := rfl
@[simp] theorem spoilPacker_phase : (s.spoilPacker).phase = s.phase := rfl
@[simp] theorem spoilPacker_busy : (s.spoilPacker).busy = s.busy := rfl
@[simp] theorem spoilPacker_done : (s.spoilPacker).done = s.done := rfl
@[simp] theorem spoilPacker_err : (s.spoilPacker).err = s.err := rfl
@[simp] theorem spoilPacker_errinfo : (s.spoilPacker).errinfo = s.errinfo := rfl
@[simp] theorem spoilPacker_ilen : (s.spoilPacker).ilen = s.ilen := rfl
@[simp] theorem spoilPacker_olen : (s.spoilPacker).olen = s.olen := rfl
@[simp] theorem spoilPacker_ibuf : (s.spoilPacker).ibuf = s.ibuf := rfl
@[simp] theorem spoilPacker_obuf : (s.spoilPacker).obuf = s.obuf := rfl
@[simp] theorem spoilPacker_payload : (s.spoilPacker).payload = s.payload := rfl
@[simp] theorem spoilPacker_plen : (s.spoilPacker).plen = s.plen := rfl
@[simp] theorem spoilPacker_vbc : (s.spoilPacker).vbc = s.vbc := rfl
@[simp] theorem spoilPacker_pqArgv : (s.spoilPacker).pqArgv = s.pqArgv := rfl
@[simp] theorem spoilPacker_pqArgi : (s.spoilPacker).pqArgi = s.pqArgi := rfl
@[simp] theorem spoilPacker_pqRes : (s.spoilPacker).pqRes = s.pqRes := rfl
@[simp] theorem spoilPacker_pqItems : (s.spoilPacker).pqItems = s.pqItems := rfl
@[simp] theorem spoilPacker_heap : (s.spoilPacker).heap = s.heap := rfl
@[simp] theorem spoilPacker_freq : (s.spoilPacker).freq = s.freq := rfl
@[simp] theorem spoilPacker_arena : (s.spoilPacker).arena = s.arena := rfl
@[simp] theorem spoilPacker_root : (s.spoilPacker).root = s.root := rfl
@[simp] theorem spoilPacker_code : (s.spoilPacker).code = s.code := rfl
@[simp] theorem spoilPacker_rev : (s.spoilPacker).rev = s.rev := rfl
@[simp] theorem spoilPacker_acc : (s.spoilPacker).acc = s.acc := rfl
@[simp] theorem spoilPacker_pkByte : (s.spoilPacker).pkByte = Config.freeByte s.fresh := rfl
@[simp] theorem spoilPacker_pkCnt : (s.spoilPacker).pkCnt = Config.freeCnt s.fresh := rfl
@[simp] theorem spoilPacker_rpos : (s.spoilPacker).rpos = s.rpos := rfl
@[simp] theorem spoilPacker_wpos : (s.spoilPacker).wpos = s.wpos := rfl
@[simp] theorem spoilPacker_bitpos : (s.spoilPacker).bitpos = s.bitpos := rfl
@[simp] theorem spoilPacker_unitErr : (s.spoilPacker).unitErr = s.unitErr := rfl
@[simp] theorem spoilPacker_inputs : (s.spoilPacker).inputs = s.inputs := rfl
@[simp] theorem spoilPacker_fresh : (s.spoilPacker).fresh = s.fresh := rfl

/-! spoilCursors -/

@[simp] theorem spoilCursors_params : (s.spoilCursors).params = s.params := rfl
@[simp] theorem spoilCursors_op : (s.spoilCursors).op = s.op := rfl
@[simp] theorem spoilCursors_phase : (s.spoilCursors).phase = s.phase := rfl
@[simp] theorem spoilCursors_busy : (s.spoilCursors).busy = s.busy := rfl
@[simp] theorem spoilCursors_done : (s.spoilCursors).done = s.done := rfl
@[simp] theorem spoilCursors_err : (s.spoilCursors).err = s.err := rfl
@[simp] theorem spoilCursors_errinfo : (s.spoilCursors).errinfo = s.errinfo := rfl
@[simp] theorem spoilCursors_ilen : (s.spoilCursors).ilen = s.ilen := rfl
@[simp] theorem spoilCursors_olen : (s.spoilCursors).olen = s.olen := rfl
@[simp] theorem spoilCursors_ibuf : (s.spoilCursors).ibuf = s.ibuf := rfl
@[simp] theorem spoilCursors_obuf : (s.spoilCursors).obuf = s.obuf := rfl
@[simp] theorem spoilCursors_payload : (s.spoilCursors).payload = s.payload := rfl
@[simp] theorem spoilCursors_plen : (s.spoilCursors).plen = s.plen := rfl
@[simp] theorem spoilCursors_vbc : (s.spoilCursors).vbc = s.vbc := rfl
@[simp] theorem spoilCursors_pqArgv : (s.spoilCursors).pqArgv = s.pqArgv := rfl
@[simp] theorem spoilCursors_pqArgi : (s.spoilCursors).pqArgi = s.pqArgi := rfl
@[simp] theorem spoilCursors_pqRes : (s.spoilCursors).pqRes = s.pqRes := rfl
@[simp] theorem spoilCursors_pqItems : (s.spoilCursors).pqItems = s.pqItems := rfl
@[simp] theorem spoilCursors_heap : (s.spoilCursors).heap = s.heap := rfl
@[simp] theorem spoilCursors_freq : (s.spoilCursors).freq = s.freq := rfl
@[simp] theorem spoilCursors_arena : (s.spoilCursors).arena = s.arena := rfl
@[simp] theorem spoilCursors_root : (s.spoilCursors).root = s.root := rfl
@[simp] theorem spoilCursors_code : (s.spoilCursors).code = s.code := rfl
@[simp] theorem spoilCursors_rev : (s.spoilCursors).rev = s.rev := rfl
@[simp] theorem spoilCursors_acc : (s.spoilCursors).acc = s.acc := rfl
@[simp] theorem spoilCursors_pkByte : (s.spoilCursors).pkByte = s.pkByte := rfl
@[simp] theorem spoilCursors_pkCnt : (s.spoilCursors).pkCnt = s.pkCnt := rfl
@[simp] theorem spoilCursors_rpos : (s.spoilCursors).rpos = Config.freeNat s.fresh 3 % 2 ^ 33 := rfl
@[simp] theorem spoilCursors_wpos : (s.spoilCursors).wpos = s.wpos := rfl
@[simp] theorem spoilCursors_bitpos :
    (s.spoilCursors).bitpos = Config.freeNat s.fresh 5 % 2 ^ 40 := rfl
@[simp] theorem spoilCursors_unitErr : (s.spoilCursors).unitErr = s.unitErr := rfl
@[simp] theorem spoilCursors_inputs : (s.spoilCursors).inputs = s.inputs := rfl
@[simp] theorem spoilCursors_fresh : (s.spoilCursors).fresh = s.fresh := rfl

/-! applyReset -/

@[simp] theorem applyReset_params : (s.applyReset).params = s.params := rfl
@[simp] theorem applyReset_op : (s.applyReset).op = .idle := rfl
@[simp] theorem applyReset_phase : (s.applyReset).phase = .idle := rfl
@[simp] theorem applyReset_busy : (s.applyReset).busy = false := rfl
@[simp] theorem applyReset_done : (s.applyReset).done = false := rfl
@[simp] theorem applyReset_err : (s.applyReset).err = false := rfl
@[simp] theorem applyReset_errinfo : (s.applyReset).errinfo = 0#32 := rfl
@[simp] theorem applyReset_ilen : (s.applyReset).ilen = 0#32 := rfl
@[simp] theorem applyReset_olen : (s.applyReset).olen = 0#32 := rfl
@[simp] theorem applyReset_ibuf : (s.applyReset).ibuf = Mem.scrubbed s.fresh := rfl
@[simp] theorem applyReset_obuf : (s.applyReset).obuf = Mem.scrubbed s.fresh := rfl
@[simp] theorem applyReset_payload : (s.applyReset).payload = Mem.scrubbed s.fresh := rfl
@[simp] theorem applyReset_plen : (s.applyReset).plen = 0#32 := rfl
@[simp] theorem applyReset_vbc : (s.applyReset).vbc = 0#32 := rfl
@[simp] theorem applyReset_pqArgv : (s.applyReset).pqArgv = 0 := rfl
@[simp] theorem applyReset_pqArgi : (s.applyReset).pqArgi = 0 := rfl
@[simp] theorem applyReset_pqRes : (s.applyReset).pqRes = 0 := rfl
@[simp] theorem applyReset_pqItems : (s.applyReset).pqItems = [] := rfl
@[simp] theorem applyReset_heap : (s.applyReset).heap = [] := rfl
@[simp] theorem applyReset_freq : (s.applyReset).freq = constTable 0#32 := rfl
@[simp] theorem applyReset_arena : (s.applyReset).arena = [] := rfl
@[simp] theorem applyReset_root : (s.applyReset).root = none := rfl
@[simp] theorem applyReset_code : (s.applyReset).code = constTable [] := rfl
@[simp] theorem applyReset_rev : (s.applyReset).rev = [] := rfl
@[simp] theorem applyReset_acc : (s.applyReset).acc = [] := rfl
@[simp] theorem applyReset_pkByte : (s.applyReset).pkByte = 0#8 := rfl
@[simp] theorem applyReset_pkCnt : (s.applyReset).pkCnt = 0#3 := rfl
@[simp] theorem applyReset_rpos : (s.applyReset).rpos = 0 := rfl
@[simp] theorem applyReset_wpos : (s.applyReset).wpos = 0 := rfl
@[simp] theorem applyReset_bitpos : (s.applyReset).bitpos = 0 := rfl
@[simp] theorem applyReset_unitErr : (s.applyReset).unitErr = none := rfl
@[simp] theorem applyReset_inputs : (s.applyReset).inputs = s.inputs := rfl
@[simp] theorem applyReset_fresh : (s.applyReset).fresh = s.fresh + 1 := rfl

end Sys2Proof.Machine
end

