-- ==== Sys2Proof/Laws/Memory.lean ====
section
/-! SUPPORT. The laws of a buffer: every operation keeps the canonical form, a read after a write, runs of
bytes, and the tables. -/

namespace Sys2Proof.Machine

/-! ### The canonical form -/

theorem mem_insertCell (l : List Host.Cell) (a : Nat) (v : Byte) (c : Host.Cell)
    (h : c ∈ insertCell l a v) : c = (a, v) ∨ c ∈ l := by
  induction l with
  | nil => simpa [insertCell] using h
  | cons x r ih =>
    obtain ⟨k, b⟩ := x
    simp only [insertCell] at h
    split at h
    · simpa using h
    · split at h
      · rcases List.mem_cons.1 h with h | h <;> simp [h]
      · rcases List.mem_cons.1 h with h | h
        · simp [h]
        · rcases ih h with h | h <;> simp [h]

theorem insertCell_rising (l : List Host.Cell) (a : Nat) (v : Byte)
    (h : l.Pairwise (fun x y => x.1 < y.1)) :
    (insertCell l a v).Pairwise (fun x y => x.1 < y.1) := by
  induction l with
  | nil => simp [insertCell]
  | cons x r ih =>
    obtain ⟨k, b⟩ := x
    rw [List.pairwise_cons] at h
    simp only [insertCell]
    split
    · rename_i hak
      rw [List.pairwise_cons]
      refine ⟨fun c hc => ?_, List.pairwise_cons.2 h⟩
      rcases List.mem_cons.1 hc with rfl | hc
      · exact hak
      · exact lt_trans hak (h.1 c hc)
    · split
      · rename_i hak
        subst hak
        exact List.pairwise_cons.2 ⟨fun c hc => h.1 c hc, h.2⟩
      · rename_i h1 h2
        rw [List.pairwise_cons]
        refine ⟨fun c hc => ?_, ih h.2⟩
        rcases mem_insertCell r a v c hc with rfl | hc
        · show k < a
          omega
        · exact h.1 c hc

theorem write_wf (m : Mem) (a : Nat) (v : Byte) (h : m.wf) : (m.write a v).wf :=
  insertCell_rising m.cells a v h

theorem writeBytes_wf (bs : List Byte) (m : Mem) (a : Nat) (h : m.wf) :
    (m.writeBytes a bs).wf := by
  induction bs generalizing m a with
  | nil => exact h
  | cons b bs ih => exact ih _ _ (write_wf m a b h)

theorem setBit_wf (sp : Space) (m : Mem) (i : Nat) (v : Bool) (h : m.wf) :
    (m.setBit sp i v).wf := write_wf _ _ _ h

theorem scrubbed_wf (n : Nat) : (Mem.scrubbed n).wf := List.Pairwise.nil

theorem resetWith_wf (p : Params) :
    (State.resetWith p).ibuf.wf ∧ (State.resetWith p).obuf.wf ∧ (State.resetWith p).payload.wf :=
  ⟨List.Pairwise.nil, List.Pairwise.nil, List.Pairwise.nil⟩

/-! ### Which cells a write lists -/

theorem mem_write (m : Mem) (a : Nat) (v : Byte) (c : Host.Cell) (h : c ∈ (m.write a v).cells) :
    c = (a, v) ∨ c ∈ m.cells := mem_insertCell m.cells a v c h

theorem mem_writeBytes (bs : List Byte) (m : Mem) (a : Nat) (c : Host.Cell)
    (h : c ∈ (m.writeBytes a bs).cells) : (a ≤ c.1 ∧ c.1 < a + bs.length) ∨ c ∈ m.cells := by
  induction bs generalizing m a with
  | nil => exact Or.inr h
  | cons b bs ih =>
    rcases ih _ _ h with h | h
    · left
      simp only [List.length_cons]
      omega
    · rcases mem_write m a b c h with rfl | h
      · left
        simp
      · exact Or.inr h

/-! ### Reading after writing -/

theorem lookupCell_insertCell (l : List Host.Cell) (a : Nat) (v : Byte) (a' : Nat) :
    lookupCell (insertCell l a v) a' = if a' = a then some v else lookupCell l a' := by
  induction l with
  | nil =>
    simp only [insertCell, lookupCell]
    split <;> split <;> simp_all
  | cons x r ih =>
    obtain ⟨k, b⟩ := x
    simp only [insertCell]
    split
    · by_cases h : a' = a
      · simp [lookupCell, h]
      · simp [lookupCell, h, Ne.symm h]
    · split
      · rename_i hak
        subst hak
        by_cases h : a' = a
        · simp [lookupCell, h]
        · simp [lookupCell, h, Ne.symm h]
      · rename_i h1 h2
        by_cases h : k = a'
        · have : a' ≠ a := by omega
          simp [lookupCell, h, this]
        · simp [lookupCell, h, ih]

@[simp] theorem write_epoch (m : Mem) (a : Nat) (v : Byte) : (m.write a v).epoch = m.epoch := rfl

theorem written_write (m : Mem) (a : Nat) (v : Byte) (a' : Nat) :
    (m.write a v).written a' = if a' = a then some v else m.written a' :=
  lookupCell_insertCell m.cells a v a'

/-- A byte read after a byte written: the value written at the same address, else unchanged. -/
theorem read_write (sp : Space) (m : Mem) (a : Nat) (v : Byte) (a' : Nat) :
    (m.write a v).read sp a' = if a' = a then v else m.read sp a' := by
  unfold Mem.read
  rw [written_write]
  by_cases h : a' = a <;> simp [h]

/-- A byte outside a run written is unchanged. -/
theorem read_writeBytes_outside (sp : Space) (bs : List Byte) (m : Mem) (a a' : Nat)
    (h : a' < a ∨ a + bs.length ≤ a') : (m.writeBytes a bs).read sp a' = m.read sp a' := by
  induction bs generalizing m a with
  | nil => rfl
  | cons b bs ih =>
    simp only [List.length_cons] at h
    have hne : a' ≠ a := by omega
    rw [Mem.writeBytes, ih _ _ (by omega), read_write, if_neg hne]

/-- A byte inside a run written is the run's. -/
theorem read_writeBytes_inside (sp : Space) (bs : List Byte) (m : Mem) (a k : Nat)
    (h : k < bs.length) : (m.writeBytes a bs).read sp (a + k) = bs[k] := by
  induction bs generalizing m a k with
  | nil => simp at h
  | cons b bs ih =>
    rw [Mem.writeBytes]
    cases k with
    | zero =>
      rw [read_writeBytes_outside sp bs _ _ _ (by omega), read_write]
      simp
    | succ k =>
      have := ih (m.write a b) (a + 1) k (by simpa using h)
      rw [show a + (k + 1) = a + 1 + k by omega, this]
      simp

@[simp] theorem readBytes_length (sp : Space) (m : Mem) (a n : Nat) :
    (m.readBytes sp a n).length = n := by simp [Mem.readBytes]

@[simp] theorem readBytes_zero (sp : Space) (m : Mem) (a : Nat) : m.readBytes sp a 0 = [] := rfl

theorem readBytes_getElem (sp : Space) (m : Mem) (a n k : Nat)
    (h : k < (m.readBytes sp a n).length) : (m.readBytes sp a n)[k] = m.read sp (a + k) := by
  simp [Mem.readBytes]

theorem readBytes_append (sp : Space) (m : Mem) (a n k : Nat) :
    m.readBytes sp a (n + k) = m.readBytes sp a n ++ m.readBytes sp (a + n) k := by
  simp [Mem.readBytes, List.range_add, Nat.add_assoc]

/-- A run read back where it was written. -/
theorem readBytes_writeBytes (sp : Space) (bs : List Byte) (m : Mem) (a : Nat) :
    (m.writeBytes a bs).readBytes sp a bs.length = bs := by
  apply List.ext_getElem (by simp)
  intro k h1 h2
  rw [readBytes_getElem, read_writeBytes_inside]

/-! ### Tables -/

theorem tableGet_tableSet {α : Type} (t : Table α) (a : Byte) (x : α) (b : Byte) :
    tableGet (tableSet t a x) b = if b = a then x else tableGet t b := by
  unfold tableGet tableSet
  rw [Vector.getElem_set]
  by_cases h : b = a
  · simp [h]
  · have : a.toNat ≠ b.toNat := fun e => h (BitVec.eq_of_toNat_eq e.symm)
    simp [h, this]

@[simp] theorem tableGet_constTable {α : Type} (x : α) (b : Byte) :
    tableGet (constTable x) b = x := by
  unfold constTable
  simp [tableGet]

@[simp] theorem tableGet_tableOf {α : Type} (f : Nat → α) (b : Byte) :
    tableGet (tableOf f) b = f b.toNat := by
  unfold tableOf
  simp [tableGet]

@[simp] theorem symbols_length : symbols.length = 256 := by simp [symbols]

theorem symbols_nodup : symbols.Nodup := by decide +kernel

theorem mem_symbols (b : Byte) : b ∈ symbols := by
  simp only [symbols, List.mem_map, List.mem_range]
  exact ⟨b.toNat, b.isLt, by simp⟩

@[simp] theorem entries_length {α : Type} (t : Table α) : (entries t).length = 256 := by
  simp [entries]

theorem entries_getElem {α : Type} (t : Table α) (k : Nat) (h : k < (entries t).length) :
    (entries t)[k] = (BitVec.ofNat 8 k, tableGet t (BitVec.ofNat 8 k)) := by
  have hk : k < 256 := by simpa using h
  simp [entries, symbols, tableGet, Nat.mod_eq_of_lt hk]

/-- The entries of a table are its symbols each with its own entry. -/
theorem mem_entries {α : Type} (t : Table α) (x : Byte × α) :
    x ∈ entries t ↔ x.2 = tableGet t x.1 := by
  constructor
  · intro h
    obtain ⟨k, hk, rfl⟩ := List.getElem_of_mem h
    rw [entries_getElem]
  · intro h
    have hk : x.1.toNat < (entries t).length := by simp; exact x.1.isLt
    have := entries_getElem t x.1.toNat hk
    simp only [BitVec.ofNat_toNat, BitVec.setWidth_eq] at this
    rw [← h] at this
    have hx : x = (entries t)[x.1.toNat] := this.symm
    rw [hx]
    exact List.getElem_mem hk

theorem entries_symbols {α : Type} (t : Table α) : (entries t).map Prod.fst = symbols := by
  rw [entries, List.map_fst_zip]
  simp

theorem entries_eq_map {α : Type} (t : Table α) :
    entries t = symbols.map fun b => (b, tableGet t b) := by
  apply List.ext_getElem (by simp)
  intro k h1 h2
  rw [entries_getElem]
  simp [symbols]

end Sys2Proof.Machine
end

