-- ==== Sys2Proof/Laws/Ops.lean ====
section
/-! SUPPORT. What each shared operation can do, said once: sequencing, loops, Need, Emit, the PriorityQueue
operations on the state, and the two ways an operation ends. -/

namespace Sys2Proof.Machine

/-! ### Sequencing -/

@[simp] theorem done_bind (s : State) (k : State → Res) : (Res.done s).bind k = k s := rfl

@[simp] theorem raise_bind (e : Err) (s : State) (k : State → Res) :
    (Res.raise e s).bind k = .raise e s := rfl

@[simp] theorem stop_bind (f : Fault) (k : State → Res) : (Res.stop f).bind k = .stop f := rfl

theorem bind_assoc (r : Res) (k l : State → Res) :
    (r.bind k).bind l = r.bind fun s => (k s).bind l := by cases r <;> rfl

theorem bind_eq_done {r : Res} {k : State → Res} {t : State} :
    r.bind k = .done t ↔ ∃ s, r = .done s ∧ k s = .done t := by cases r <;> simp

theorem bind_eq_raise {r : Res} {k : State → Res} {e : Err} {t : State} :
    r.bind k = .raise e t ↔ r = .raise e t ∨ ∃ s, r = .done s ∧ k s = .raise e t := by
  cases r <;> simp

theorem bind_eq_stop {r : Res} {k : State → Res} {f : Fault} :
    r.bind k = .stop f ↔ r = .stop f ∨ ∃ s, r = .done s ∧ k s = .stop f := by cases r <;> simp

/-- A property of the state that an operation ends with, completed or failed. -/
def Res.Holds (P : State → Prop) : Res → Prop
  | .done s => P s
  | .raise _ s => P s
  | .stop _ => True

@[simp] theorem holds_done {P : State → Prop} {s : State} : (Res.done s).Holds P ↔ P s := Iff.rfl

@[simp] theorem holds_raise {P : State → Prop} {e : Err} {s : State} :
    (Res.raise e s).Holds P ↔ P s := Iff.rfl

@[simp] theorem holds_stop {P : State → Prop} {f : Fault} : (Res.stop f).Holds P := trivial

theorem holds_mono {P Q : State → Prop} {r : Res} (h : r.Holds P) (hPQ : ∀ s, P s → Q s) :
    r.Holds Q := by cases r <;> simp_all

/-- An operation after another: what holds after the first is all the second may rely on. -/
theorem holds_bind {P Q : State → Prop} {r : Res} {k : State → Res} (hr : r.Holds P)
    (hraise : ∀ s, P s → Q s) (hk : ∀ s, P s → (k s).Holds Q) : (r.bind k).Holds Q := by
  cases r with
  | done s => exact hk s hr
  | raise e s => exact hraise s hr
  | stop f => trivial

theorem holds_bind_same {P : State → Prop} {r : Res} {k : State → Res} (hr : r.Holds P)
    (hk : ∀ s, P s → (k s).Holds P) : (r.bind k).Holds P := holds_bind hr (fun _ h => h) hk

/-- A loop keeps what its body keeps. -/
theorem holds_forEach {α : Type} {P : State → Prop} {body : α → State → Res} (xs : List α)
    (s : State) (hs : P s) (h : ∀ x ∈ xs, ∀ t, P t → (body x t).Holds P) :
    (forEach body xs s).Holds P := by
  induction xs generalizing s with
  | nil => exact hs
  | cons x xs ih =>
    refine holds_bind_same (h x (by simp) s hs) fun t ht => ?_
    exact ih t ht fun y hy => h y (by simp [hy])

theorem holds_mergeLoop {P : State → Prop} (n : Nat) (s : State) (hs : P s)
    (h : ∀ t, P t → (mergeOnce t).Holds P) : (mergeLoop n s).Holds P := by
  induction n generalizing s with
  | zero => exact hs
  | succ n ih =>
    rw [mergeLoop]
    split
    · exact holds_bind_same (h s hs) fun t ht => ih t ht
    · exact hs

theorem holds_decodeLoop {P : State → Prop} (d n : Nat) (s : State) (hs : P s)
    (h : ∀ t, P t → (decodeBit d t).Holds P) : (decodeLoop d n s).Holds P := by
  induction n generalizing s with
  | zero => exact hs
  | succ n ih => exact holds_bind_same (h s hs) fun t ht => ih t ht

theorem holds_readEntries {P : State → Prop} (n : Nat) (s : State) (hs : P s)
    (h : ∀ t, P t → (readEntry t).Holds P) : (readEntries n s).Holds P := by
  induction n generalizing s with
  | zero => exact hs
  | succ n ih => exact holds_bind_same (h s hs) fun t ht => ih t ht

theorem forEach_append {α : Type} (body : α → State → Res) (xs ys : List α) (s : State) :
    forEach body (xs ++ ys) s = (forEach body xs s).bind (forEach body ys) := by
  induction xs generalizing s with
  | nil => rfl
  | cons x xs ih =>
    simp only [List.cons_append, forEach, bind_assoc]
    congr 1
    funext t
    exact ih t

/-! ### Need and Emit -/

/-- Everything `Need(n)` can do. -/
theorem need_cases (n : Nat) (s : State) (k : List Byte → State → Res) :
    (n = 0 ∧ need n s k = k [] s) ∨
    (s.ilen.toNat < s.rpos + n ∧ need n s k = .raise .format s) ∨
    (s.params.ibufCap.toNat < s.rpos + n ∧ need n s k = .stop .ibufAddress) ∨
    (s.rpos + n ≤ s.ilen.toNat ∧ s.rpos + n ≤ s.params.ibufCap.toNat ∧
      need n s k = k (s.ibufBytes s.rpos n) { s with rpos := s.rpos + n }) := by
  unfold need
  split
  · exact Or.inl ⟨by assumption, rfl⟩
  · split
    · exact Or.inr (Or.inl ⟨by assumption, rfl⟩)
    · split
      · exact Or.inr (Or.inr (Or.inl ⟨by assumption, rfl⟩))
      · exact Or.inr (Or.inr (Or.inr ⟨by omega, by omega, rfl⟩))

/-- What holds after `Need(n)` and its continuation. -/
theorem holds_need {P : State → Prop} {n : Nat} {s : State} {k : List Byte → State → Res}
    (hs : P s) (h0 : n = 0 → (k [] s).Holds P)
    (hk : s.rpos + n ≤ s.ilen.toNat →
      (k (s.ibufBytes s.rpos n) { s with rpos := s.rpos + n }).Holds P) :
    (need n s k).Holds P := by
  rcases need_cases n s k with ⟨hn, h⟩ | ⟨_, h⟩ | ⟨_, h⟩ | ⟨hl, _, h⟩ <;> rw [h]
  · exact h0 hn
  · exact hs
  · trivial
  · exact hk hl

/-- Everything `Emit(B)` can do. -/
theorem emit_cases (bs : List Byte) (s : State) :
    (s.params.obufCap.toNat < s.wpos + bs.length ∧ emit bs s = .raise .outputOverflow s) ∨
    (s.wpos + bs.length ≤ s.params.obufCap.toNat ∧
      emit bs s =
        .done { s with obuf := s.obuf.writeBytes s.wpos bs, wpos := s.wpos + bs.length }) := by
  unfold emit
  split
  · exact Or.inl ⟨by assumption, rfl⟩
  · exact Or.inr ⟨by omega, rfl⟩

/-! ### The PriorityQueue on the state -/

theorem pqInsert_cases (q : QueueParams) (s : State) :
    (s.heap.length = q.cap ∧ pqInsert q s = .raise .overflow s) ∨
    (s.heap.length ≠ q.cap ∧
      pqInsert q s = .done { s with heap := heapInsert (s.less q) s.heap s.pqArgv }) := by
  unfold pqInsert
  split
  · exact Or.inl ⟨by assumption, rfl⟩
  · exact Or.inr ⟨by assumption, rfl⟩

theorem pqExtractMin_cases (q : QueueParams) (s : State) :
    (s.heap = [] ∧ pqExtractMin q s = .raise .empty s) ∨
    (∃ r l, s.heap = r :: l ∧
      pqExtractMin q s = .done { s with pqRes := r, heap := heapExtract (s.less q) s.heap }) := by
  unfold pqExtractMin
  split
  · exact Or.inl ⟨by assumption, rfl⟩
  · exact Or.inr ⟨_, _, by assumption, rfl⟩

theorem pqBuild_cases (q : QueueParams) (s : State) :
    (q.cap < s.pqItems.length ∧ pqBuild q s = .raise .capacity s) ∨
    (s.pqItems.length ≤ q.cap ∧
      pqBuild q s = .done { s with heap := heapBuild (s.less q) s.pqItems }) := by
  unfold pqBuild
  split
  · exact Or.inl ⟨by assumption, rfl⟩
  · exact Or.inr ⟨by omega, rfl⟩

theorem pqDecreaseKey_cases (q : QueueParams) (s : State) :
    (s.heap[s.pqArgi]? = none ∧ pqDecreaseKey q s = .raise .range s) ∨
    (∃ old, s.heap[s.pqArgi]? = some old ∧ s.less q s.pqArgv old = false ∧
      pqDecreaseKey q s = .raise .ordering s) ∨
    (∃ old, s.heap[s.pqArgi]? = some old ∧ s.less q s.pqArgv old = true ∧
      pqDecreaseKey q s =
        .done { s with heap := heapDecrease (s.less q) s.heap s.pqArgi s.pqArgv }) := by
  unfold pqDecreaseKey
  split
  · exact Or.inl ⟨by assumption, rfl⟩
  · rename_i old hold
    split
    · exact Or.inr (Or.inr ⟨old, hold, by assumption, rfl⟩)
    · exact Or.inr (Or.inl ⟨old, hold, by simp_all, rfl⟩)

/-! ### How an operation ends -/

/-- A command's outcome is a next state in exactly two ways. -/
theorem commandOutcome_next {r : Res} {t : State} :
    commandOutcome r = .next t ↔ r = .done t ∨ ∃ e s, r = .raise e s ∧ t = abort e s := by
  cases r <;> simp [commandOutcome, eq_comm]

/-- A stand-alone operation's outcome is a next state in exactly two ways. -/
theorem unitOutcome_next {spoil : State → State} {r : Res} {t : State} :
    unitOutcome spoil r = .next t ↔
      (∃ s, r = .done s ∧ t = s.setResult none) ∨
      ∃ e s, r = .raise e s ∧ t = (spoil s).setResult (some e) := by
  cases r <;> simp [unitOutcome, eq_comm]

end Sys2Proof.Machine
end

