-- ==== Sys2Proof/Laws/Heap.lean ====
section
/-! SUPPORT. The lists under the PriorityQueue: lookups after a swap, and the lengths that the sifts and
the four operations leave. -/

namespace Sys2Proof.Machine

@[simp] theorem swapAt_length (h : List Elem) (i j : Nat) : (swapAt h i j).length = h.length := by
  unfold swapAt
  split <;> simp

/-- The elements after a swap, position by position. -/
theorem swapAt_getElem? (h : List Elem) (i j k : Nat) (hi : i < h.length) (hj : j < h.length) :
    (swapAt h i j)[k]? = if k = j then h[i]? else if k = i then h[j]? else h[k]? := by
  unfold swapAt
  rw [List.getElem?_eq_getElem hi, List.getElem?_eq_getElem hj]
  simp only [List.getElem?_set, List.length_set]
  by_cases h1 : k = j
  · subst h1
    simp [hj]
  · by_cases h2 : k = i
    · subst h2
      simp [h1, hi, Ne.symm h1]
    · simp [h1, h2, Ne.symm h1, Ne.symm h2]

theorem lessAt_true {less : Elem → Elem → Bool} {h : List Elem} {i j : Nat}
    (hl : lessAt less h i j = true) :
    ∃ a b, h[i]? = some a ∧ h[j]? = some b ∧ less a b = true := by
  unfold lessAt at hl
  split at hl
  · exact ⟨_, _, by assumption, by assumption, hl⟩
  · simp at hl

theorem lessAt_lt {less : Elem → Elem → Bool} {h : List Elem} {i j : Nat}
    (hl : lessAt less h i j = true) : i < h.length ∧ j < h.length := by
  obtain ⟨a, b, ha, hb, _⟩ := lessAt_true hl
  exact ⟨(List.getElem?_eq_some_iff.1 ha).1, (List.getElem?_eq_some_iff.1 hb).1⟩

@[simp] theorem siftUpLoop_length (less : Elem → Elem → Bool) (n : Nat) (h : List Elem) (i : Nat) :
    (siftUpLoop less n h i).length = h.length := by
  induction n generalizing h i with
  | zero => rfl
  | succ n ih =>
    rw [siftUpLoop]
    split
    · rw [ih, swapAt_length]
    · rfl

@[simp] theorem siftUp_length (less : Elem → Elem → Bool) (h : List Elem) (i : Nat) :
    (siftUp less h i).length = h.length := siftUpLoop_length less i h i

@[simp] theorem siftDownLoop_length (less : Elem → Elem → Bool) (n : Nat) (h : List Elem)
    (i : Nat) : (siftDownLoop less n h i).length = h.length := by
  induction n generalizing h i with
  | zero => rfl
  | succ n ih =>
    rw [siftDownLoop]
    split
    · rfl
    · rw [ih, swapAt_length]

@[simp] theorem siftDown_length (less : Elem → Elem → Bool) (h : List Elem) (i : Nat) :
    (siftDown less h i).length = h.length := siftDownLoop_length less _ h i

@[simp] theorem heapify_length (less : Elem → Elem → Bool) (k : Nat) (h : List Elem) :
    (heapify less k h).length = h.length := by
  induction k generalizing h with
  | zero => rfl
  | succ k ih => rw [heapify, ih, siftDown_length]

@[simp] theorem heapInsert_length (less : Elem → Elem → Bool) (h : List Elem) (v : Elem) :
    (heapInsert less h v).length = h.length + 1 := by simp [heapInsert]

@[simp] theorem heapBuild_length (less : Elem → Elem → Bool) (items : List Elem) :
    (heapBuild less items).length = items.length := by simp [heapBuild]

@[simp] theorem heapDecrease_length (less : Elem → Elem → Bool) (h : List Elem) (i : Nat)
    (v : Elem) : (heapDecrease less h i v).length = h.length := by simp [heapDecrease]

/-- The two shapes of a queue that an extraction meets: one element, or a root, a middle and a last. -/
theorem heapExtract_single (less : Elem → Elem → Bool) (r : Elem) : heapExtract less [r] = [] := rfl

theorem heapExtract_more (less : Elem → Elem → Bool) (r : Elem) (m : List Elem) (v : Elem) :
    heapExtract less (r :: m ++ [v]) = siftDown less (v :: m) 0 := by
  have h1 : (r :: m ++ [v]).dropLast = r :: m := List.dropLast_concat
  have h2 : (r :: m ++ [v]).getLast? = some v := List.getLast?_concat
  unfold heapExtract
  rw [h1, h2]

@[simp] theorem heapExtract_length (less : Elem → Elem → Bool) (h : List Elem) :
    (heapExtract less h).length = h.length - 1 := by
  match h with
  | [] => rfl
  | [r] => rfl
  | r :: x :: l =>
    obtain ⟨m, v, hm⟩ : ∃ m v, x :: l = m ++ [v] :=
      ⟨(x :: l).dropLast, (x :: l).getLast (by simp), (List.dropLast_append_getLast (by simp)).symm⟩
    rw [hm, ← List.cons_append, heapExtract_more]
    simp

end Sys2Proof.Machine
end

