-- ==== Sys2Proof/Laws/PerInstr.lean ====
section
/-! SUPPORT. Statements for all instructions, one lemma per constructor. -/

namespace Sys2Proof.Laws.Codec

/-- The instruction is well formed, its encoding is one byte with the unit above the op
(30_encoding.md R70), and decoding the encoding with any bytes after it gives it back. -/
def Statement (i : Instr) : Prop :=
  i.wellFormed = true ∧ (encode i).length = 1 ∧ codeUnit (encodeByte i) = unitOf i ∧
    codeOp (encodeByte i) = opOf i ∧ ∀ rest, decode (encode i ++ rest) = .ok (i, rest)

theorem compress : Statement .compress := ⟨rfl, rfl, rfl, rfl, fun _ => rfl⟩
theorem decompress : Statement .decompress := ⟨rfl, rfl, rfl, rfl, fun _ => rfl⟩
theorem pqInsert : Statement .pqInsert := ⟨rfl, rfl, rfl, rfl, fun _ => rfl⟩
theorem pqExtractMin : Statement .pqExtractMin := ⟨rfl, rfl, rfl, rfl, fun _ => rfl⟩
theorem pqBuild : Statement .pqBuild := ⟨rfl, rfl, rfl, rfl, fun _ => rfl⟩
theorem pqDecreaseKey : Statement .pqDecreaseKey := ⟨rfl, rfl, rfl, rfl, fun _ => rfl⟩
theorem fcCount : Statement .fcCount := ⟨rfl, rfl, rfl, rfl, fun _ => rfl⟩
theorem tbBuild : Statement .tbBuild := ⟨rfl, rfl, rfl, rfl, fun _ => rfl⟩
theorem cgGen : Statement .cgGen := ⟨rfl, rfl, rfl, rfl, fun _ => rfl⟩
theorem cgInvert : Statement .cgInvert := ⟨rfl, rfl, rfl, rfl, fun _ => rfl⟩
theorem bpEncode : Statement .bpEncode := ⟨rfl, rfl, rfl, rfl, fun _ => rfl⟩
theorem bpDecode : Statement .bpDecode := ⟨rfl, rfl, rfl, rfl, fun _ => rfl⟩
theorem cfWrite : Statement .cfWrite := ⟨rfl, rfl, rfl, rfl, fun _ => rfl⟩
theorem cfRead : Statement .cfRead := ⟨rfl, rfl, rfl, rfl, fun _ => rfl⟩

end Sys2Proof.Laws.Codec
end

