-- ==== Sys2Proof/Laws/Step.lean ====
section
/-! SUPPORT. Everything a step can do: the inversion lemmas of `engineTurn`, `exec` on a component and
`step`, from which invariants are derived. -/

namespace Sys2Proof.Machine

/-- A turn of the engine: nothing while idle, else the part that (OP, PHASE) names, ended or aborted. -/
theorem engineTurn_next {s t : State} (h : engineTurn s = .next t) :
    (s.busy = false ∧ t = s) ∨
    (s.busy = true ∧ (enginePart s = .done t ∨ ∃ e u, enginePart s = .raise e u ∧ t = abort e u)) := by
  unfold engineTurn at h
  split at h
  · exact Or.inr ⟨by assumption, commandOutcome_next.1 h⟩
  · simp only [Host.Outcome.next.injEq] at h
    exact Or.inl ⟨by simp_all, h.symm⟩

/-- An access that is made only while BUSY = 0. -/
theorem whileIdle_next {s t : State} {o : Host.Outcome State Fault Refusal}
    (h : whileIdle s o = .next t) : s.busy = false ∧ o = .next t := by
  unfold whileIdle at h
  split at h
  · simp at h
  · exact ⟨by simp_all, h⟩

/-- A value at the queue's interface: an element of T, or no step. -/
theorem ifElems_next {l : List Elem} {s t : State} {o : Host.Outcome State Fault Refusal}
    (h : ifElems l s o = .next t) : (∀ e ∈ l, s.params.queue.isElem e = true) ∧ o = .next t := by
  unfold ifElems at h
  split at h
  · exact ⟨List.all_eq_true.1 (by assumption), h⟩
  · simp at h

/-- An operation code presented: it decodes, and its operation is executed. -/
theorem operate_next {c : Byte} {s t : State} (h : operate c s = .next t) :
    ∃ i, decodeByte c = .ok i ∧ exec i s = .next t := by
  cases hd : decodeByte c with
  | ok i =>
    have hi : decode [c] = .ok (i, []) := by simp [decode, hd]
    rw [operate, hi] at h
    exact ⟨i, rfl, h⟩
  | error r =>
    have hi : decode [c] = .error r := by simp [decode, hd]
    rw [operate, hi] at h
    simp at h

/-- What one step can do, by the input it takes. -/
theorem step_next {s t : State} (h : step s = .next t) :
    (s.inputs = [] ∧ engineTurn s = .next t) ∨
    ∃ x rest, s.inputs = x :: rest ∧ applyInput x { s with inputs := rest } = .next t := by
  unfold step advance at h
  split at h
  · exact Or.inl ⟨by assumption, h⟩
  · exact Or.inr ⟨_, _, by assumption, h⟩

/-- What the issue of a command can do. -/
theorem issue_cases (c : Byte) (s : State) :
    (commandOf c = none ∧ issue c s = .raise .command s.clearReport) ∨
    (∃ o, commandOf c = some o ∧ lengthLegal o s = false ∧
      issue c s = .raise .command (s.clearReport.setOp o)) ∨
    (∃ o, commandOf c = some o ∧ lengthLegal o s = true ∧
      issue c s = .done (s.clearReport.setOp o).setBusy) := by
  unfold issue
  split
  · exact Or.inl ⟨by assumption, rfl⟩
  · rename_i o ho
    split
    · exact Or.inr (Or.inr ⟨o, ho, by assumption, rfl⟩)
    · exact Or.inr (Or.inl ⟨o, ho, by simp_all, rfl⟩)

end Sys2Proof.Machine
end

