-- ==== Sys2Proof/Tests/Slice0.lean ====
section
/-! SUPPORT. The model's own tests: ill-formed terms are refused, command codes written out from the spec
decode, one-step examples of the spec, and for every statement with hypotheses a witness that meets
them. Expected values are those of the worked examples in spec/. -/

namespace Sys2Proof.Tests

open Sys2Proof Sys2Proof.Machine

-- One theorem at a time: the kernel evaluations below would otherwise start a thread each.
set_option Elab.async false

/-! ### Helpers -/

/-- A small instance: a queue of capacity 8 over the natural numbers, buffers of 64 bytes. -/
def inst : Params :=
  { queue := { cap := 8, elems := none, order := .ranked [] }, ibufCap := 64#32, obufCap := 64#32 }

/-- The small instance after reset. -/
def blank : State := State.resetWith inst

/-- A buffer that holds the given bytes from address 0. -/
def held (bs : List Byte) : Mem := { cells := (List.range bs.length).zip bs, epoch := 0 }

/-- The small instance with an input loaded. -/
def loaded (bs : List Byte) : State :=
  { blank with ibuf := held bs, ilen := BitVec.ofNat 32 bs.length }

/-- The small instance with a queue content and operands. -/
def queued (h : List Elem) (i : Nat) (v : Elem) : State :=
  { blank with heap := h, pqArgi := i, pqArgv := v }

/-- Whether an outcome is a next state with a property. -/
def nextIs (o : Host.Outcome State Fault Refusal) (p : State → Bool) : Bool :=
  match o with
  | .next t => p t
  | .fault _ => false
  | .refused _ => false

theorem exists_of_nextIs {o : Host.Outcome State Fault Refusal} {p : State → Bool}
    (h : nextIs o p = true) : ∃ t, o = .next t ∧ p t = true := by
  cases o with
  | next t => exact ⟨t, rfl, h⟩
  | fault f => exact absurd h (by simp [nextIs])
  | refused r => exact absurd h (by simp [nextIs])

/-- `"ABRACADABRA"`. -/
def abra : List Byte :=
  [0x41#8, 0x42#8, 0x52#8, 0x41#8, 0x43#8, 0x41#8, 0x44#8, 0x41#8, 0x42#8, 0x52#8, 0x41#8]

/-- The container of `"ABRACADABRA"` (44_container.md R165's example). -/
def abraContainer : List Byte :=
  [0x05#8, 0x00#8, 0x00#8, 0x00#8, 0x41#8, 0x01#8, 0x30#8, 0x42#8, 0x03#8, 0x31#8, 0x31#8, 0x30#8,
    0x43#8, 0x03#8, 0x31#8, 0x30#8, 0x30#8, 0x44#8, 0x03#8, 0x31#8, 0x30#8, 0x31#8, 0x52#8, 0x03#8,
    0x31#8, 0x31#8, 0x31#8, 0x17#8, 0x00#8, 0x00#8, 0x00#8, 0x6E#8, 0x8A#8, 0xDC#8]

/-- The frequencies of `"ABRACADABRA"` (41_tree_builder.md R120's example). -/
def abraFreq : Table Word :=
  tableSet (tableSet (tableSet (tableSet (tableSet (constTable 0#32) 0x41#8 5#32) 0x42#8 2#32)
    0x43#8 1#32) 0x44#8 1#32) 0x52#8 2#32

/-- The tree of `"ABRACADABRA"` (41_tree_builder.md R134). -/
def abraArena : List Node :=
  [.leaf 0x41#8 5#32, .leaf 0x42#8 2#32, .leaf 0x43#8 1#32, .leaf 0x44#8 1#32, .leaf 0x52#8 2#32,
    .internal 2#32 2#9 3#9, .internal 4#32 1#9 4#9, .internal 6#32 5#9 6#9,
    .internal 11#32 0#9 7#9]

/-- The codes of `"ABRACADABRA"` (42_code_generator.md R135's example). -/
def abraCode : Table Bits :=
  tableSet (tableSet (tableSet (tableSet (tableSet (constTable []) 0x41#8 [false])
    0x42#8 [true, true, false]) 0x43#8 [true, false, false]) 0x44#8 [true, false, true])
    0x52#8 [true, true, true]

/-- The inverse of those codes (42_code_generator.md R141's example). -/
def abraRev : List RevEntry :=
  [⟨[false], 0x41#8⟩, ⟨[true, true, false], 0x42#8⟩, ⟨[true, false, false], 0x43#8⟩,
    ⟨[true, false, true], 0x44#8⟩, ⟨[true, true, true], 0x52#8⟩]

/-- The packed text and its bit count (43_bit_packer.md R150's example). -/
def abraPacked : State :=
  { blank with code := abraCode, rev := abraRev, vbc := 23#32, plen := 3#32,
               payload := held [0x6E#8, 0x8A#8, 0xDC#8] }

/-! ### Well-formedness: an ill-formed term for each check -/

theorem test_wf_params_refuses_no_capacity :
    Params.wellFormed { inst with queue := { cap := 0, elems := none, order := .node } } = false := by decide

theorem test_wf_params_accepts_one_slot :
    Params.wellFormed { inst with queue := { cap := 1, elems := none, order := .node } } = true := by decide

theorem test_wf_line_refuses_bare_operands :
    Line.wellFormed inst (.plain .pqInsert) = false ∧ Line.wellFormed inst (.plain .pqBuild) = false ∧
      Line.wellFormed inst (.plain .pqDecreaseKey) = false := by decide

theorem test_wf_line_refuses_wide_index :
    Line.wellFormed inst (.decreaseKey 9 0) = false ∧
      Line.wellFormed inst (.decreaseKey 8 0) = true := by decide

theorem test_wf_line_refuses_no_element :
    Line.wellFormed Config.defaultParams (.insert 512) = false ∧
      Line.wellFormed Config.defaultParams (.build [511, 600]) = false ∧
      Line.wellFormed Config.defaultParams (.decreaseKey 0 512) = false ∧
      Line.wellFormed Config.defaultParams (.insert 511) = true := by decide

theorem test_wf_line_refuses_long_load :
    Line.wellFormed inst (.load (List.replicate 65 0#8)) = false ∧
      Line.wellFormed inst (.load (List.replicate 64 0#8)) = true := by decide

theorem test_wf_every_instruction : Instr.wellFormed .cfRead = true := by decide

/-! ### Decoding: unit in bits 7:4, op in bits 3:0 (30_encoding.md R70, R71) -/

theorem test_decode_top : decode [0b00000001#8] = .ok (.compress, []) ∧
    decode [0b00000010#8] = .ok (.decompress, []) := by decide

theorem test_decode_pq : decode [0b00010000#8] = .ok (.pqInsert, []) ∧
    decode [0b00010001#8] = .ok (.pqExtractMin, []) ∧
    decode [0b00010010#8] = .ok (.pqBuild, []) ∧
    decode [0b00010011#8, 0xAA#8] = .ok (.pqDecreaseKey, [0xAA#8]) := by decide

theorem test_decode_tb : decode [0b00100000#8] = .ok (.fcCount, []) ∧
    decode [0b00100001#8] = .ok (.tbBuild, []) := by decide

theorem test_decode_cg : decode [0b00110000#8] = .ok (.cgGen, []) ∧
    decode [0b00110001#8] = .ok (.cgInvert, []) := by decide

theorem test_decode_bp : decode [0b01000000#8] = .ok (.bpEncode, []) ∧
    decode [0b01000001#8] = .ok (.bpDecode, []) := by decide

theorem test_decode_cf : decode [0b01010000#8] = .ok (.cfWrite, []) ∧
    decode [0b01010001#8] = .ok (.cfRead, []) := by decide

theorem test_decode_refuses : decode [] = .error .noByte ∧
    decode [0x00#8] = .error (.unassignedOp 0#4 0#4) ∧
    decode [0x14#8] = .error (.unassignedOp 1#4 4#4) ∧
    decode [0x52#8] = .error (.unassignedOp 5#4 2#4) ∧
    decode [0x60#8] = .error (.unassignedUnit 6#4) ∧
    decode [0xFF#8] = .error (.unassignedUnit 15#4) := by decide

theorem test_decode_table_word : decodeTableWord 8 0x31 = some .cgInvert ∧
    decodeTableWord 8 0x03 = none := by decide

/-- A presented code runs as the first instruction after reset. -/
theorem test_fetch_runs_first :
    nextIs (step (State.reset.withFetchWord 8 0x13)) (fun t => t.unitErr == some .range) = true := by
  decide +kernel

/-- A node index has 9 bits (40_priority_queue.md R115): 600 cannot enter PQ_ARGV. -/
theorem test_step_refuses_no_element :
    (match step { State.reset with inputs := [.setArgv 600] } with
      | .refused .notAnElement => true
      | _ => false) = true := by decide +kernel

/-- `>` on all natural numbers (40_priority_queue.md R100). -/
theorem test_reversed_order : orderLess (.reversed (.ranked [])) [] 9 3 = true ∧
    orderLess (.reversed (.ranked [])) [] 3 9 = false := by decide

/-- A byte the host wrote at or beyond OLEN can be read back (20_memory.md R67). -/
theorem test_host_reads_obuf_freely :
    nextIs (step { blank with inputs := [.writeObuf 63 0xAB#8] }) (fun t =>
      hostReadObuf t 63 == some 0xAB#8 && !obufValid t 63 && hostReadObuf t 64 == none) = true := by
  decide +kernel

/-- On a tie of the two children the left one is taken (95_test_vectors.md V-PQ-10); without a tie the
smaller one, not the first that is less (V-PQ-12). -/
theorem test_sift_down_children :
    siftDown (orderLess (.ranked [3, 1, 1]) []) [0, 1, 2] 0 = [1, 0, 2] ∧
      siftDown (orderLess (.ranked []) []) [9, 4, 2] 0 = [2, 4, 9] ∧
      siftDown (orderLess (.ranked []) []) [9, 2, 4] 0 = [2, 9, 4] := by decide

/-- The ERRINFO words of FormatError inside and after dictSize, and of a decoded text too long for OBUF
(95_test_vectors.md V-CF-5, V-TOP-26). -/
theorem test_error_words : errInfoWord .format .headerParsed .decompress = 0x2806#32 ∧
    errInfoWord .format .idle .decompress = 0x2006#32 ∧
    errInfoWord .outputOverflow .tableLoaded .decompress = 0x290E#32 := by decide

/-- A tie with the parent stops siftUp (95_test_vectors.md V-PQ-9). -/
theorem test_sift_up_tie : siftUp (orderLess (.ranked [1, 1, 1, 1]) []) [0, 1, 2, 3] 3 = [0, 1, 2, 3] := by
  decide

/-! ### One step of each instruction, from the worked examples of the spec -/

theorem test_insert_sifts_up :
    nextIs (exec .pqInsert (queued [3, 5, 8] 0 1)) (fun t => t.heap == [1, 3, 8, 5]) = true := by
  decide +kernel

theorem test_insert_full :
    nextIs (exec .pqInsert (queued [0, 1, 2, 3, 4, 5, 6, 7] 0 9)) (fun t =>
      t.unitErr == some .overflow && t.heap == [0, 1, 2, 3, 4, 5, 6, 7]) = true := by
  decide +kernel

theorem test_extract_returns_root :
    nextIs (exec .pqExtractMin (queued [1, 3, 2, 5, 9, 8] 0 0)) (fun t =>
      t.pqRes == 1 && t.heap == [2, 3, 8, 5, 9]) = true := by decide +kernel

theorem test_extract_empty :
    nextIs (exec .pqExtractMin blank) (fun t => t.unitErr == some .empty) = true := by
  decide +kernel

theorem test_build_heapifies :
    nextIs (exec .pqBuild { blank with pqItems := [9, 7, 5, 3, 1, 8, 6, 4] }) (fun t =>
      t.heap == [1, 3, 5, 4, 7, 8, 6, 9]) = true := by decide +kernel

theorem test_build_too_many :
    nextIs (exec .pqBuild { queued [2] 0 0 with pqItems := [1, 2, 3, 4, 5, 6, 7, 8, 9] }) (fun t =>
      t.unitErr == some .capacity && t.heap == [2]) = true := by decide +kernel

theorem test_decrease_sifts_up :
    nextIs (exec .pqDecreaseKey (queued [1, 3, 5, 4, 7, 8, 6, 9] 7 0)) (fun t =>
      t.heap == [0, 1, 5, 3, 7, 8, 6, 4]) = true := by decide +kernel

theorem test_decrease_equal_is_ordering_error :
    nextIs (exec .pqDecreaseKey (queued [1, 3] 1 3)) (fun t => t.unitErr == some .ordering) = true := by
  decide +kernel

theorem test_count_abra :
    nextIs (exec .fcCount (loaded abra)) (fun t => t.freq == abraFreq) = true := by decide +kernel

theorem test_count_reads_ilen_bytes :
    nextIs (exec .fcCount { loaded abra with ilen := 0#32 }) (fun t =>
      t.freq == constTable 0#32) = true := by decide +kernel

theorem test_tree_abra :
    nextIs (exec .tbBuild { blank with freq := abraFreq }) (fun t =>
      t.arena == abraArena && t.root == some 8#9 && t.heap == []) = true := by decide +kernel

theorem test_tree_of_nothing :
    nextIs (exec .tbBuild { blank with heap := [3], root := some 1#9 }) (fun t =>
      t.arena == [] && t.root == none && t.heap == []) = true := by decide +kernel

theorem test_gen_abra :
    nextIs (exec .cgGen { blank with arena := abraArena, root := some 8#9 }) (fun t =>
      t.code == abraCode) = true := by decide +kernel

theorem test_gen_single_leaf :
    nextIs (exec .cgGen { blank with arena := [.leaf 0x41#8 4#32], root := some 0#9 }) (fun t =>
      tableGet t.code 0x41#8 == [false]) = true := by decide +kernel

theorem test_invert_abra :
    nextIs (exec .cgInvert { blank with code := abraCode }) (fun t => t.rev == abraRev) = true := by
  decide +kernel

theorem test_invert_duplicate :
    nextIs (exec .cgInvert { blank with code := constTable [true] }) (fun t =>
      t.unitErr == some .duplicateCode) = true := by decide +kernel

theorem test_encode_abra :
    nextIs (exec .bpEncode { loaded abra with code := abraCode }) (fun t =>
      t.vbc == 23#32 && t.plen == 3#32 && t.payload == held [0x6E#8, 0x8A#8, 0xDC#8]) = true := by
  decide +kernel

theorem test_encode_unknown_symbol :
    nextIs (exec .bpEncode { loaded [0x41#8, 0x5A#8] with code := abraCode }) (fun t =>
      t.unitErr == some .unknownSymbol) = true := by decide +kernel

theorem test_decode_abra :
    nextIs (exec .bpDecode abraPacked) (fun t =>
      t.obuf.readBytes .obuf 0 t.wpos == abra && t.unitErr == none) = true := by decide +kernel

theorem test_decode_leftover :
    nextIs (exec .bpDecode { abraPacked with vbc := 21#32 }) (fun t =>
      t.unitErr == some .incompleteData) = true := by decide +kernel

theorem test_write_abra :
    nextIs (exec .cfWrite abraPacked) (fun t =>
      t.obuf.readBytes .obuf 0 t.wpos == abraContainer) = true := by decide +kernel

theorem test_write_overflow :
    nextIs (exec .cfWrite { abraPacked with params := { inst with obufCap := 33#32 } }) (fun t =>
      t.unitErr == some .outputOverflow) = true := by decide +kernel

theorem test_read_abra :
    nextIs (exec .cfRead (loaded abraContainer)) (fun t =>
      t.rev == abraRev && t.vbc == 23#32 && t.rpos == 34 &&
        t.payload == held [0x6E#8, 0x8A#8, 0xDC#8]) = true := by decide +kernel

theorem test_read_truncated :
    nextIs (exec .cfRead (loaded abraContainer.dropLast)) (fun t =>
      t.unitErr == some .format) = true := by decide +kernel

theorem test_compress_abra :
    nextIs (exec .compress (loaded abra)) (fun t =>
      statusWord t == 2#32 && t.olen == 34#32 && hostOutput t == abraContainer) = true := by
  decide +kernel

/-- OutputOverflowError from CF.WRITE: code 14, EPHASE Packed, EOP COMPRESS (45_top_level.md R187). -/
theorem test_compress_overflow :
    nextIs (exec .compress { loaded abra with params := { inst with obufCap := 33#32 } }) (fun t =>
      statusWord t == 4#32 && t.olen == 0#32 && t.errinfo == 0x140E#32) = true := by decide +kernel

theorem test_decompress_abra :
    nextIs (exec .decompress (loaded abraContainer)) (fun t =>
      statusWord t == 2#32 && t.olen == 11#32 && hostOutput t == abra) = true := by decide +kernel

/-- Bits left over: code 7, EPHASE TableLoaded, EOP DECOMPRESS (95_test_vectors.md V-CF-23). -/
theorem test_decompress_incomplete :
    nextIs (exec .decompress (loaded [0#8, 0#8, 0#8, 0#8, 3#8, 0#8, 0#8, 0#8, 0xE0#8])) (fun t =>
      statusWord t == 4#32 && t.olen == 0#32 && t.errinfo == 0x2907#32) = true := by decide +kernel

/-! ### Witnesses: for every statement with hypotheses a state and operands that meet all of them -/

/-- An idle state of the kind reset leaves satisfies the sequencer's invariant. -/
theorem sequencerOk_idle (s : State) (hb : s.busy = false) (hd : s.done = false) (he : s.err = false)
    (ho : s.op = .idle) (hp : s.phase = .idle) (hr : s.errinfo = 0#32) (hl : s.olen = 0#32) :
    SequencerOk s where
  oneFlag := by simp [hb, hd, he]
  idle := fun _ => ⟨ho, hp⟩
  running := by simp [hb]
  legal := by simp [hb]
  report := fun _ => hr
  reserved := by rw [hr]; decide
  noOutput := by simp [he]
  fits := by simp [hl]
  walked := by simp [hp]

/-- A running COMPRESS of `"ABRACADABRA"`, before its first part. -/
def running : State := { loaded abra with op := .compress, busy := true }

theorem sequencerOk_running : SequencerOk running where
  oneFlag := by decide
  idle := by simp [running]
  running := by decide
  legal := by decide
  report := by intro; rfl
  reserved := by decide
  noOutput := by intro; rfl
  fits := by decide
  walked := by simp [running, loaded, blank, State.resetWith]

theorem widthsOk_running : WidthsOk running where
  size := by decide
  nodes := by decide
  rev := by decide
  codes := by simp [CodesFit, running, loaded, blank, State.resetWith]
  revBits := by simp [running, loaded, blank, State.resetWith]
  rpos := by decide
  wpos := by decide
  bitpos := by decide
  acc := by decide
  argv := rfl
  res := rfl
  items := fun _ _ => rfl
  elems := fun _ _ => rfl
  header := by simp [running, loaded, blank, State.resetWith]

/-- EveryTableCodeSelectsItsOperation, DecodeAndEncodeAgree. -/
theorem witness_decode : decodeByte 0x51#8 = .ok .cfRead ∧ Instr.wellFormed .cfRead = true := by decide

/-- ResetInAnyStateLeavesTheResetValues, on a running command. -/
theorem witness_reset : { running with inputs := [.reset, .poll] }.inputs = .reset :: [.poll] := rfl

/-- StepRunsTheDecodedInstruction. -/
theorem witness_step : ∃ (s : State) (c : Byte) (rest : List Input) (i : Instr), s.busy = false ∧
    s.inputs = .operate c :: rest ∧ decode [c] = .ok (i, []) ∧ i.wellFormed = true :=
  ⟨{ blank with inputs := [.operate 0x20#8] }, 0x20#8, [], .fcCount, rfl, rfl, by decide, rfl⟩

/-- WritingALegalCommandIssuesIt, at both limits: ILEN = IBUF_CAP, and ILEN = MAX_TEXT_LEN for
COMPRESS. -/
theorem witness_legal_command : ∃ (s s' : State), s.busy = false ∧ s.inputs = [.writeCmd 0x02#8] ∧
    commandOf 0x02#8 = some .decompress ∧ s.ilen.toNat = s.params.ibufCap.toNat ∧
    s'.busy = false ∧ s'.inputs = [.writeCmd 0x01#8] ∧ commandOf 0x01#8 = some .compress ∧
    s'.ilen.toNat ≤ s'.params.ibufCap.toNat ∧ s'.ilen.toNat = Config.maxTextLen :=
  ⟨{ blank with ilen := 64#32, inputs := [.writeCmd 0x02#8] },
    { State.reset with ilen := 536870911#32, inputs := [.writeCmd 0x01#8] },
    rfl, rfl, by decide, by decide, rfl, rfl, by decide, by decide, by decide⟩

/-- WritingAnIllegalCodeRaisesCommandError, with a component's code. -/
theorem witness_illegal_code : ∃ (s : State), s.busy = false ∧ SequencerOk s ∧
    s.inputs = [.writeCmd 0x10#8] ∧ 0x10#8 ≠ 0x01#8 ∧ 0x10#8 ≠ 0x02#8 :=
  ⟨{ blank with inputs := [.writeCmd 0x10#8] }, rfl, sequencerOk_idle _ rfl rfl rfl rfl rfl rfl rfl,
    rfl, by decide, by decide⟩

/-- AnIllegalLengthRaisesCommandError: each limit passed by one. -/
theorem witness_illegal_length : ∃ (s s' : State), s.busy = false ∧ SequencerOk s ∧
    s.inputs = [.writeCmd 0x02#8] ∧ commandOf 0x02#8 = some .decompress ∧
    s.params.ibufCap.toNat + 1 = s.ilen.toNat ∧ s'.busy = false ∧ SequencerOk s' ∧
    s'.inputs = [.writeCmd 0x01#8] ∧ commandOf 0x01#8 = some .compress ∧
    Config.maxTextLen + 1 = s'.ilen.toNat ∧ s'.ilen.toNat ≤ s'.params.ibufCap.toNat :=
  ⟨{ blank with ilen := 65#32, inputs := [.writeCmd 0x02#8] },
    { State.reset with ilen := 536870912#32, inputs := [.writeCmd 0x01#8] },
    rfl, sequencerOk_idle _ rfl rfl rfl rfl rfl rfl rfl, rfl, by decide, by decide,
    rfl, sequencerOk_idle _ rfl rfl rfl rfl rfl rfl rfl, rfl, by decide, by decide, by decide⟩

/-- AWriteToCmdWhileBusyIsIgnored, OtherAccessesWhileBusyAreRefused. -/
theorem witness_busy : { running with inputs := [.writeCmd 0x02#8] }.busy = true ∧
    { running with inputs := [.writeCmd 0x02#8] }.inputs = [.writeCmd 0x02#8] := ⟨rfl, rfl⟩

/-- FineAndCoarseStepsAgree, CompressEndsWithOneOfItsTwoErrors,
DecompressEndsWithOneOfItsFourErrors. -/
theorem witness_idle : (loaded abra).busy = false ∧ (loaded abra).phase = .idle := ⟨rfl, rfl⟩

/-- CompletionSetsDoneAndReturnsToIdle. -/
theorem witness_written : { running with phase := .written }.busy = true ∧
    { running with phase := .written }.op ≠ .idle ∧
    { running with phase := .written }.phase = .written := by decide

/-- WidthsStayRespected, where T is bounded: reset of the integrated block. -/
theorem witness_widths_reset : SequencerOk State.reset ∧ WidthsOk State.reset ∧
    ∃ t, step State.reset = .next t ∧ (t.heap == []) = true :=
  ⟨sequencerOk_idle _ rfl rfl rfl rfl rfl rfl rfl,
    { size := by decide, nodes := by decide, rev := by decide,
      codes := by simp [CodesFit, State.reset, State.resetWith],
      revBits := by simp [State.reset, State.resetWith], rpos := by decide, wpos := by decide,
      bitpos := by decide, acc := by decide, argv := by decide, res := by decide,
      items := by simp [State.reset, State.resetWith],
      elems := by simp [State.reset, State.resetWith],
      header := by simp [State.reset, State.resetWith] },
    exists_of_nextIs (by decide +kernel)⟩

/-- SequencerStaysConsistent, WidthsStayRespected, BuffersStayCanonical, BuffersStayInBounds,
NoStepChangesTheInstance: a turn of the engine that goes on to Counting. -/
theorem witness_running_step : SequencerOk running ∧ WidthsOk running ∧ BuffersCanonical running ∧
    BuffersInBounds running ∧ ∃ t, step running = .next t ∧ (t.phase == .counting) = true :=
  ⟨sequencerOk_running, widthsOk_running, by unfold BuffersCanonical; decide,
    by unfold BuffersInBounds; decide, exists_of_nextIs (by decide +kernel)⟩

/-- EachOperationWritesOnlyItsOutputs, StandAloneOperationsLeaveTheHostRegisters: an operation that
completes and one that fails, and both commands completing. -/
theorem witness_operation : isComponent .cfRead = true ∧
    (∃ t, exec .cfRead (loaded abraContainer) = .next t ∧ (t.unitErr == none) = true) ∧
    (∃ t, exec .cfRead (loaded [0#8]) = .next t ∧ (t.unitErr == some .format) = true) ∧
    (∃ t, exec .compress (loaded abra) = .next t ∧ (t.err == false) = true) ∧
    ∃ t, exec .decompress (loaded abraContainer) = .next t ∧ (t.err == false) = true :=
  ⟨by decide, exists_of_nextIs (by decide +kernel), exists_of_nextIs (by decide +kernel),
    exists_of_nextIs (by decide +kernel), exists_of_nextIs (by decide +kernel)⟩

/-- U32AndBytesU32AreInverse, at the largest value. -/
theorem witness_u32 : 4294967295 < 2 ^ 32 := by decide

/-- NeedReadsOrRaisesFormatError: the last byte that can be had, and one more. -/
theorem witness_need : (loaded abra).rpos ≤ (loaded abra).ilen.toNat ∧
    (loaded abra).ilen.toNat ≤ (loaded abra).params.ibufCap.toNat ∧
    (loaded abra).rpos + 11 = (loaded abra).ilen.toNat ∧
    (loaded abra).rpos + 12 > (loaded abra).ilen.toNat := by decide

/-- EmitWritesOrRaisesOverflow: the last byte that fits, and one more. -/
theorem witness_emit : { blank with wpos := 63 }.wpos + [0xAA#8].length ≤ inst.obufCap.toNat ∧
    { blank with wpos := 64 }.wpos + [0xAA#8].length > inst.obufCap.toNat := by decide

/-- RevLookupIsAnExactMatch: a table with distinct and non-empty codes, a hit and a miss. -/
theorem witness_lookup : (∀ e ∈ abraRev, ∀ e' ∈ abraRev, e.bits = e'.bits → e.sym = e'.sym) ∧
    (∀ e ∈ abraRev, e.bits ≠ []) ∧ revLookup abraRev [true, true, false] = some 0x42#8 ∧
    revLookup abraRev [true, true] = none := by decide

/-- PqInsertAppendsAndSiftsUp, at the last free slot and on a full queue. -/
theorem witness_insert : (queued [0, 1, 2, 3, 4, 5, 6] 0 9).size ≠ inst.queue.cap ∧
    (queued [0, 1, 2, 3, 4, 5, 6, 7] 0 9).size = inst.queue.cap := by decide

/-- PqExtractMinReturnsTheRoot: one element, more, none. -/
theorem witness_extract : (queued [3] 0 0).heap = [3] ∧ (queued [1, 3, 2] 0 0).heap = 1 :: [3] ++ [2] ∧
    blank.heap = [] := by decide

/-- PqBuildReplacesTheContent: exactly CAP items, and one more. -/
theorem witness_build : { blank with pqItems := List.replicate 8 5 }.pqItems.length ≤ inst.queue.cap ∧
    inst.queue.cap < { blank with pqItems := List.replicate 9 5 }.pqItems.length := by decide

/-- PqDecreaseKeyReplacesAndSiftsUp: a smaller value, an index equal to SIZE, an equal value. -/
theorem witness_decrease : (queued [1, 3] 1 2).heap[(queued [1, 3] 1 2).pqArgi]? = some 3 ∧
    (queued [1, 3] 1 2).less inst.queue (queued [1, 3] 1 2).pqArgv 3 = true ∧
    (queued [1, 3] 2 0).size ≤ (queued [1, 3] 2 0).pqArgi ∧
    (queued [1, 3] 1 3).less inst.queue (queued [1, 3] 1 3).pqArgv 3 = false := by decide

/-- AFailingQueueOperationChangesNothing. -/
theorem witness_failing : isQueueOp .pqExtractMin = true ∧
    ∃ t, exec .pqExtractMin blank = .next t ∧ (t.unitErr != none) = true :=
  ⟨by decide, exists_of_nextIs (by decide +kernel)⟩

theorem heapOrdered_three : HeapOrdered ((queued [1, 3, 2] 1 2).less inst.queue) [1, 3, 2] := by
  intro i a b hi ha hb
  match i with
  | 1 | 2 => simp at ha hb; subst ha hb; decide
  | n + 3 => simp at ha

/-- QueueOperationsKeepTheHeapInvariant, ExtractMinReturnsAMinimum, QueueOperationsConserveTheElements:
all four operations complete on one queue in heap order. -/
theorem witness_queue : HeapOrdered ((queued [1, 3, 2] 1 2).less inst.queue) (queued [1, 3, 2] 1 2).heap ∧
    (∃ t, exec .pqInsert (queued [1, 3, 2] 1 2) = .next t ∧ (t.unitErr == none) = true) ∧
    (∃ t, exec .pqExtractMin (queued [1, 3, 2] 1 2) = .next t ∧ (t.unitErr == none) = true) ∧
    (∃ t, exec .pqBuild (queued [1, 3, 2] 1 2) = .next t ∧ (t.unitErr == none) = true) ∧
    ∃ t, exec .pqDecreaseKey (queued [1, 3, 2] 1 2) = .next t ∧ (t.unitErr == none) = true :=
  ⟨heapOrdered_three, exists_of_nextIs (by decide +kernel), exists_of_nextIs (by decide +kernel),
    exists_of_nextIs (by decide +kernel), exists_of_nextIs (by decide +kernel)⟩

/-- An order with ties. -/
def halfLess (a b : Nat) : Bool := decide (a / 2 < b / 2)

/-- SiftsRestoreTheHeapUnderAnyOrder: an order with ties, a heap, and a value below the element. -/
theorem witness_strict_weak : StrictWeak halfLess ∧
    HeapOrdered halfLess [4] ∧
    ∀ old, ([4] : List Elem)[0]? = some old → halfLess 1 old = true := by
  refine ⟨⟨by simp [halfLess], ?_, ?_⟩, ?_, ?_⟩
  · intro a b c h1 h2
    exact decide_eq_true (Nat.lt_trans (of_decide_eq_true h1) (of_decide_eq_true h2))
  · intro a b c h
    rcases Nat.lt_or_ge (a / 2) (b / 2) with hab | hab
    · exact Or.inl (decide_eq_true hab)
    · exact Or.inr (decide_eq_true (Nat.lt_of_le_of_lt hab (of_decide_eq_true h)))
  · intro i a b hi ha hb
    match i with
    | n + 1 => simp at ha
  · intro old h; simp at h; subst h; decide

/-- InstanceOrdersAreStrictWeakOrders. -/
theorem witness_distinct : (0 : Elem) ≠ 1 := by decide

/-- FcCountCountsTheText, with ILEN = IBUF_CAP. -/
theorem witness_count : { blank with ilen := 64#32 }.ilen.toNat ≤ inst.ibufCap.toNat := by decide

/-- TbBuildCompletesWithOneRoot: no symbol, one symbol. -/
theorem witness_tree : presentCounts blank.freq = [] ∧
    presentCounts (tableSet (constTable 0#32) 0x41#8 4#32) ≠ [] := by decide +kernel

/-- TbBuildArenaIsAForestOfSums, EveryNodeButTheRootHasOneParent, CgGenOfABuiltTreeIsAPrefixCode: five leaves, nine records. -/
theorem witness_forest : (presentCounts abraFreq).length = 5 ∧
    ∃ t, exec .tbBuild { blank with freq := abraFreq } = .next t ∧
      decide ((presentCounts abraFreq).length ≤ 8 ∧ 8 < t.nnodes) = true :=
  ⟨by decide +kernel, exists_of_nextIs (by decide +kernel)⟩

/-- AMergeTakesTheTwoLeastNodes: three leaves in the queue, the least in front. -/
theorem witness_merge : ∃ s : State, HeapOrdered (nodeLess s.arena) s.heap ∧ s.heap.Nodup ∧
    1 < s.heap.length ∧ s.heap.length ≤ 256 ∧ (∀ k ∈ s.heap, k < s.arena.length) ∧
    s.arena.length ≤ 511 := by
  refine ⟨{ blank with arena := abraArena.take 3, heap := [2, 0, 1] }, ?_, by decide, by decide,
    by decide, by decide, by decide⟩
  intro i a b hi ha hb
  match i with
  | 1 | 2 => simp at ha hb; subst ha hb; decide
  | n + 3 => simp at ha

/-- CgGenOfNoTreeAndOfASingleLeaf. -/
theorem witness_leaf : blank.root = none ∧
    ({ blank with arena := [.leaf 0x41#8 4#32], root := some 0#9 } : State).root = some 0#9 ∧
    ([.leaf 0x41#8 4#32] : List Node)[(0#9).toNat]? = some (.leaf 0x41#8 4#32) := by decide

/-- CgGenRecordsPathsToLeaves: the tree of R134, and a symbol that gets a code. -/
theorem witness_paths : abraArena[(8#9).toNat]? = some (.internal 11#32 0#9 7#9) ∧
    endsWithin abraArena 256 8#9 = true ∧
    walk abraArena 8#9 [true, true, true] = some (.leaf 0x52#8 2#32) ∧
    ∃ t, exec .cgGen { blank with arena := abraArena, root := some 8#9 } = .next t ∧
      (tableGet t.code 0x52#8 != []) = true :=
  ⟨by decide, by decide, by decide, exists_of_nextIs (by decide +kernel)⟩

/-- A table with the one code `"0"` for `A`. -/
def oneCode : Table Bits := tableSet (constTable []) 0x41#8 [false]

theorem oneCode_distinct : CodesDistinct oneCode := by
  intro a b hab ha
  simp only [oneCode, tableGet_tableSet, tableGet_constTable] at ha ⊢
  split at ha
  · rename_i h
    rw [if_pos h, if_neg fun h' => hab (h.trans h'.symm)]
    simp
  · simp at ha

theorem oneCode_prefixFree : PrefixFree oneCode := by
  intro a b hab ha hb
  simp only [oneCode, tableGet_tableSet, tableGet_constTable] at ha hb
  split at ha
  · split at hb
    · simp_all
    · simp at hb
  · simp at ha

theorem oneCode_fits : CodesFit oneCode := by
  intro b
  simp only [oneCode, tableGet_tableSet, tableGet_constTable]
  split <;> simp

theorem oneCode_inverse : IsInverse oneCode [⟨[false], 0x41#8⟩] := by
  intro c b
  simp only [oneCode, tableGet_tableSet, tableGet_constTable, revLookup, List.find?]
  by_cases hc : c = [false]
  · subst hc
    by_cases hb : b = 0x41#8
    · subst hb; simp
    · simp [hb, eq_comm]
  · have h : (([false] : Bits) == c) = false := by simp [Ne.symm hc]
    rw [h]
    by_cases hb : b = 0x41#8
    · subst hb; simp [Ne.symm hc]
    · simp [hb, eq_comm]

/-- CgInvertInvertsADistinctTable, CgInvertRaisesOnADuplicate. -/
theorem witness_invert : CodesDistinct oneCode ∧
    tableGet (constTable [true]) 0x00#8 ≠ [] ∧
    tableGet (constTable [true]) 0x00#8 = tableGet (constTable [true]) 0xFF#8 :=
  ⟨oneCode_distinct, by simp, by simp⟩

/-- BpEncodePacksTheCodes, with the text of R150's example. -/
theorem witness_encode : ∃ s : State, s.ilen.toNat ≤ s.params.ibufCap.toNat ∧
    (∀ b ∈ s.inputText, tableGet s.code b ≠ []) ∧ s.inputText = abra ∧
    (textBits s.code s.inputText).length ≤ 2 ^ 32 - 1 :=
  ⟨{ loaded abra with code := abraCode }, by decide, by decide +kernel, by decide +kernel,
    by decide +kernel⟩

/-- BpEncodeRaisesItsTwoErrors: a byte without a code; a code of 255 bits for every byte and a text just
long enough to pass 2^32 - 1 bits. -/
theorem witness_encode_errors : ∃ s s' : State, s.ilen.toNat ≤ s.params.ibufCap.toNat ∧
    (∃ b ∈ s.inputText, tableGet s.code b = []) ∧ s'.ilen.toNat ≤ s'.params.ibufCap.toNat ∧
    (∀ b ∈ s'.inputText, tableGet s'.code b ≠ []) ∧
    2 ^ 32 - 1 < (textBits s'.code s'.inputText).length := by
  refine ⟨loaded [0x41#8],
    { State.reset with ilen := 16843010#32, code := constTable (List.replicate 255 true) },
    by decide, ⟨0x41#8, by decide +kernel, tableGet_constTable _ _⟩, by decide, ?_, ?_⟩
  · intro b _
    rw [tableGet_constTable]
    exact List.cons_ne_nil _ _
  · have h : ∀ l : List Byte,
        (textBits (constTable (List.replicate 255 true)) l).length = 255 * l.length := by
      intro l
      induction l with
      | nil => rfl
      | cons b l ih =>
        have : (textBits (constTable (List.replicate 255 true)) (b :: l)) =
          List.replicate 255 true ++ textBits (constTable (List.replicate 255 true)) l := by
            rw [textBits, List.flatMap_cons, tableGet_constTable, textBits]
        rw [this, List.length_append, ih, List.length_replicate, List.length_cons]; omega
    rw [h]
    simp only [State.inputText, State.ibufBytes, readBytes_length]
    decide

/-- BpDecodeOfNoBitsIsTheEmptyText. -/
theorem witness_no_bits : blank.vbc = 0#32 := rfl

/-- BpDecodeIsTheGreedyDecoder: eleven symbols, for OBUF_CAP = 11 and for 10, and a bit left over. -/
theorem witness_greedy : abraPacked.vbc.toNat ≤ 8 * abraPacked.plen.toNat ∧
    (greedy abraRev [] (storedBits abraPacked)).1.length = 11 ∧
    (greedy abraRev [] (storedBits abraPacked)).2 = [] ∧ (10#32).toNat < 11 ∧
    (greedy abraRev [] (storedBits { abraPacked with vbc := 21#32 })).2 ≠ [] := by decide +kernel

/-- BpDecodeInvertsBpEncode. -/
theorem witness_decode_inverts : ∃ s : State, PrefixFree s.code ∧ IsInverse s.code s.rev ∧
    s.ilen.toNat ≤ s.params.ibufCap.toNat ∧ s.ilen.toNat ≤ s.params.obufCap.toNat ∧
    ∃ t, exec .bpEncode s = .next t ∧ (t.unitErr == none) = true :=
  ⟨{ loaded [0x41#8, 0x41#8] with code := oneCode, rev := [⟨[false], 0x41#8⟩] },
    oneCode_prefixFree, oneCode_inverse, by decide, by decide, exists_of_nextIs (by decide +kernel)⟩

/-- CfWriteEmitsTheContainer: OBUF exactly as long as the container, and one byte shorter. -/
theorem witness_container : (containerOf abraPacked).length = (34#32).toNat ∧
    (33#32).toNat < (containerOf abraPacked).length := by decide +kernel

/-- CfReadInvertsCfWrite, ATruncatedContainerIsAFormatError: the container of `"A"`, whole with a byte
after it, and without its last byte. -/
theorem witness_read : ∃ c s s' : State, CodesDistinct c.code ∧ CodesFit c.code ∧
    c.plen.toNat = ceilDiv8 c.vbc.toNat ∧ s.ilen.toNat ≤ s.params.ibufCap.toNat ∧
    (containerOf c).length ≤ s.ilen.toNat ∧
    s.ibuf.readBytes .ibuf 0 (containerOf c).length = containerOf c ∧
    s'.ilen.toNat ≤ s'.params.ibufCap.toNat ∧ s'.ilen.toNat < (containerOf c).length ∧
    s'.ibuf.readBytes .ibuf 0 s'.ilen.toNat = (containerOf c).take s'.ilen.toNat :=
  ⟨{ blank with code := oneCode, vbc := 1#32, plen := 1#32, payload := held [0#8] },
    loaded [1#8, 0#8, 0#8, 0#8, 0x41#8, 1#8, 0x30#8, 1#8, 0#8, 0#8, 0#8, 0#8, 0xEE#8],
    loaded [1#8, 0#8, 0#8, 0#8, 0x41#8, 1#8, 0x30#8, 1#8, 0#8, 0#8, 0#8],
    oneCode_distinct, oneCode_fits, by decide, by decide, by decide +kernel, by decide +kernel,
    by decide, by decide +kernel, by decide +kernel⟩

/-- Two entries in descending order with codes that are not prefix-free. -/
def mixedEntries : List (Byte × Bits) := [(0x42#8, [false, true]), (0x41#8, [false])]

/-- A container of `mixedEntries` with nine bits, and a byte after it. -/
def mixedInput : State :=
  loaded [2#8, 0#8, 0#8, 0#8, 0x42#8, 2#8, 0x30#8, 0x31#8, 0x41#8, 1#8, 0x30#8, 9#8, 0#8, 0#8, 0#8,
    0#8, 0#8, 0xEE#8]

theorem mixedEntries_good : GoodEntries mixedEntries := by unfold GoodEntries; decide

/-- CfReadInvertsCfWrite, DecompressEndsWithOneOfItsFourErrors: nine bits 0 are nine times `A` and fit an
OBUF of nine bytes, but not one of eight. -/
theorem witness_read_any_order : mixedInput.busy = false ∧
    mixedInput.ilen.toNat ≤ mixedInput.params.ibufCap.toNat ∧
    IsContainer mixedInput.inputText mixedEntries 9#32 [0#8, 0#8] ∧
    greedy (revOf mixedEntries) [] (packedBits [0#8, 0#8] 9) = (List.replicate 9 0x41#8, []) ∧
    (8#32).toNat < 9 :=
  ⟨rfl, by decide, ⟨mixedEntries_good, by decide, [0xEE#8], by decide +kernel⟩,
    by decide +kernel, by decide⟩

/-- DecompressEndsWithOneOfItsFourErrors: a bit left over, the greedy match of `"0"` before the longer
`"01"` having left the bit 1. -/
theorem witness_read_leftover :
    IsContainer (loaded [1#8, 0#8, 0#8, 0#8, 0x41#8, 1#8, 0x30#8, 2#8, 0#8, 0#8, 0#8, 0x40#8]).inputText
      [(0x41#8, [false])] 2#32 [0x40#8] ∧
    greedy (revOf [(0x41#8, [false])]) [] (packedBits [0x40#8] 2) = ([0x41#8], [true]) :=
  ⟨⟨by unfold GoodEntries; decide, by decide, [], by decide +kernel⟩, by decide +kernel⟩

/-- ATruncatedContainerIsAFormatError: inputs that end inside dictSize, inside an entry (with a byte that
is no code-bit character), inside validBitCount, and inside the payload. -/
theorem witness_cut : (loaded [1#8, 0#8, 0#8]).ilen.toNat = 3 ∧ CutEntry [0x41#8] ∧
    CutEntry [0x41#8, 5#8, 0x32#8] ∧ CutTail [9#8, 0#8, 0#8] ∧ CutTail [9#8, 0#8, 0#8, 0#8, 0#8] ∧
    (loaded [1#8, 0#8, 0#8, 0#8, 0x41#8, 5#8, 0x32#8]).inputText =
      bytesU32 1 ++ ([] : List (Byte × Bits)).flatMap entryBytes ++ [0x41#8, 5#8, 0x32#8] ∧
    (loaded [1#8, 0#8, 0#8, 0#8, 0x41#8, 1#8, 0x30#8, 9#8, 0#8, 0#8, 0#8, 0#8]).inputText =
      bytesU32 1 ++ [(0x41#8, [false])].flatMap entryBytes ++ [9#8, 0#8, 0#8, 0#8, 0#8] :=
  ⟨by decide, Or.inl (by decide), Or.inr ⟨0x41#8, 5#8, [0x32#8], rfl, by decide⟩, Or.inl (by decide),
    Or.inr ⟨9, [0#8], by decide, by decide, by decide⟩, by decide +kernel, by decide +kernel⟩

/-- OtherAccessesWhileBusyAreRefused, the accesses while BUSY = 0: the last byte of each buffer and the
first that does not exist, the last element of T and the first number that is none. -/
theorem witness_idle_access : blank.busy = false ∧ 63 < blank.params.ibufCap.toNat ∧
    blank.params.ibufCap.toNat ≤ 64 ∧ 63 < blank.params.obufCap.toNat ∧
    blank.params.obufCap.toNat ≤ 64 ∧ State.reset.busy = false ∧
    State.reset.params.queue.isElem 511 = true ∧ State.reset.params.queue.isElem 512 = false := by
  decide

/-- SiftsRestoreTheHeapUnderAnyOrder, the swap rule under an order with ties: a tie of the children, a
lesser right child, a right child alone less, and no child less; a parent. -/
theorem witness_children : halfLess 2 8 = true ∧ halfLess 3 2 = false ∧ halfLess 0 2 = true ∧
    halfLess 9 8 = false ∧ halfLess 0 8 = true ∧ halfLess 8 9 = false ∧
    ([4] : List Elem)[2 * 0 + 1]? = none ∧ ([8, 2] : List Elem)[(1 - 1) / 2]? = some 8 := by decide

/-- ATruncatedContainerIsAFormatError: each kind of bad entry after the entry of `A` with code `"0"`. -/
theorem witness_bad_entries : GoodEntries [(0x41#8, [false])] ∧
    BadEntry [(0x41#8, [false])] [0x42#8, 0#8] ∧
    BadEntry [(0x41#8, [false])] [0x42#8, 2#8, 0x30#8, 0x32#8] ∧
    BadEntry [(0x41#8, [false])] [0x41#8, 1#8, 0x31#8] ∧
    BadEntry [(0x41#8, [false])] [0x42#8, 1#8, 0x30#8] ∧
    ∃ s : State, s.ilen.toNat ≤ s.params.ibufCap.toNat ∧
      s.inputText = bytesU32 2 ++ [(0x41#8, [false])].flatMap entryBytes ++ [0x42#8, 0#8] ++ [9#8] :=
  ⟨by unfold GoodEntries; decide, Or.inl ⟨0x42#8, rfl⟩,
    Or.inr (Or.inl ⟨0x42#8, 2#8, [0x30#8, 0x32#8], rfl, rfl, 0x32#8, by decide⟩),
    Or.inr (Or.inr ⟨0x41#8, [true], by decide, by decide, by decide, (0x41#8, [false]),
      by decide⟩),
    Or.inr (Or.inr ⟨0x42#8, [false], by decide, by decide, by decide, (0x41#8, [false]),
      by decide⟩),
    loaded [2#8, 0#8, 0#8, 0#8, 0x41#8, 1#8, 0x30#8, 0x42#8, 0#8, 9#8], by decide,
    by decide +kernel⟩

/-- TheEmptyTextAndTheEmptyContainer, at the smallest OBUF and the shortest container. -/
theorem witness_empty : ∃ s s' : State, s.busy = false ∧ s.ilen = 0#32 ∧ 8 = s.params.obufCap.toNat ∧
    s'.busy = false ∧ 8 = s'.ilen.toNat ∧ s'.ilen.toNat ≤ s'.params.ibufCap.toNat ∧
    s'.ibuf.readBytes .ibuf 0 8 = List.replicate 8 0#8 :=
  ⟨{ blank with params := { inst with obufCap := 8#32 } }, loaded (List.replicate 8 0#8), rfl, rfl,
    by decide, rfl, by decide, by decide, by decide +kernel⟩

/-- CompressCompletesWithinBounds, at the longest text it covers. -/
theorem witness_bounds : ∃ s : State, s.busy = false ∧ s.ilen.toNat ≤ s.params.ibufCap.toNat ∧
    s.ilen.toNat = 16843009 ∧ 65800 + 32 * s.ilen.toNat ≤ s.params.obufCap.toNat :=
  ⟨{ State.reset with ilen := 16843009#32 }, rfl, by decide, by decide, by decide⟩

/-- CompressEndsWithOneOfItsTwoErrors: the three component operations on `"ABRACADABRA"`, and its
container of 34 bytes, which an OBUF of 64 holds and one of 33 does not. -/
theorem witness_container_of_text : (loaded abra).busy = false ∧
    lengthLegal .compress (loaded abra) = true ∧
    (∃ f, exec .fcCount (loaded abra) = .next f ∧
      nextIs (exec .tbBuild f) (fun b => nextIs (exec .cgGen b) fun c => c.code == abraCode) = true) ∧
    (textBits abraCode (loaded abra).inputText).length ≤ 2 ^ 32 - 1 ∧
    containerOfText abraCode (loaded abra).inputText = abraContainer ∧ abraContainer.length = 34 :=
  ⟨rfl, by decide, exists_of_nextIs (by decide +kernel), by decide +kernel, by decide +kernel,
    by decide⟩

/-- ACommandDependsOnItsInputAlone: two machines with other queue contents, codes and output bytes. -/
theorem witness_no_hidden_state : ∃ s s' : State, isComponent .compress = false ∧ s.busy = false ∧
    s'.busy = false ∧ SequencerOk s ∧ SequencerOk s' ∧ s'.params = s.params ∧ s'.ilen = s.ilen ∧
    s'.inputText = s.inputText ∧ s'.heap ≠ s.heap ∧
    (∃ t, exec .compress s = .next t ∧ t.done = true) ∧
    ∃ t, exec .compress s' = .next t ∧ t.done = true :=
  ⟨loaded abra, { loaded abra with heap := [7], rev := abraRev, obuf := held [1#8] }, by decide,
    rfl, rfl, sequencerOk_idle _ rfl rfl rfl rfl rfl rfl rfl,
    sequencerOk_idle _ rfl rfl rfl rfl rfl rfl rfl, rfl, rfl, rfl, by decide,
    exists_of_nextIs (by decide +kernel), exists_of_nextIs (by decide +kernel)⟩

/-- DecompressInvertsCompress. -/
theorem witness_round_trip : (loaded abra).busy = false ∧
    (∃ t, exec .compress (loaded abra) = .next t ∧
      (t.done && (loaded abraContainer).ilen == t.olen &&
        (loaded abraContainer).inputText == hostOutput t) = true) ∧
    (loaded abraContainer).busy = false ∧
    (loaded abraContainer).ilen.toNat ≤ (loaded abraContainer).params.ibufCap.toNat ∧
    (loaded abra).ilen.toNat ≤ (loaded abraContainer).params.obufCap.toNat :=
  ⟨rfl, exists_of_nextIs (by decide +kernel), rfl, by decide, by decide⟩

end Sys2Proof.Tests
end

/-! ### Two-sided endings: what holds where an operation completes, and what holds where it fails -/

namespace Sys2Proof.Machine

/-- `D` holds of the state an operation completes with, `R` of the state it raises an error in. -/
def Res.Ends (D R : State → Prop) : Res → Prop
  | .done s => D s
  | .raise _ s => R s
  | .stop _ => True

@[simp] theorem ends_done {D R : State → Prop} {s : State} : (Res.done s).Ends D R ↔ D s := Iff.rfl

@[simp] theorem ends_raise {D R : State → Prop} {e : Err} {s : State} :
    (Res.raise e s).Ends D R ↔ R s := Iff.rfl

@[simp] theorem ends_stop {D R : State → Prop} {f : Fault} : (Res.stop f).Ends D R := trivial

theorem ends_self {P : State → Prop} {r : Res} : r.Ends P P ↔ r.Holds P := by cases r <;> rfl

theorem ends_of_holds {P D R : State → Prop} {r : Res} (h : r.Holds P) (hD : ∀ s, P s → D s)
    (hR : ∀ s, P s → R s) : r.Ends D R := by
  cases r with
  | done s => exact hD s h
  | raise e s => exact hR s h
  | stop f => trivial

theorem ends_top_of_holds {P D : State → Prop} {r : Res} (h : r.Holds P) (hD : ∀ s, P s → D s) :
    r.Ends D fun _ => True := ends_of_holds h hD fun _ _ => trivial

theorem holds_and {P Q : State → Prop} {r : Res} (h : r.Holds P) (h' : r.Holds Q) :
    r.Holds fun s => P s ∧ Q s := by
  cases r with
  | done s => exact ⟨h, h'⟩
  | raise e s => exact ⟨h, h'⟩
  | stop f => trivial

theorem ends_mono {D D' R R' : State → Prop} {r : Res} (h : r.Ends D R) (hD : ∀ s, D s → D' s)
    (hR : ∀ s, R s → R' s) : r.Ends D' R' := by
  cases r with
  | done s => exact hD s h
  | raise e s => exact hR s h
  | stop f => trivial

theorem ends_and {D D' R R' : State → Prop} {r : Res} (h : r.Ends D R) (h' : r.Ends D' R') :
    r.Ends (fun s => D s ∧ D' s) (fun s => R s ∧ R' s) := by
  cases r with
  | done s => exact ⟨h, h'⟩
  | raise e s => exact ⟨h, h'⟩
  | stop f => trivial

theorem ends_bind {D D' R : State → Prop} {r : Res} {k : State → Res} (hr : r.Ends D R)
    (hk : ∀ s, D s → (k s).Ends D' R) : (r.bind k).Ends D' R := by
  cases r with
  | done s => exact hk s hr
  | raise e s => exact hr
  | stop f => trivial

theorem ends_thenPhase {D R : State → Prop} {p : Phase} {r : Res}
    (h : r.Ends (fun s => D (s.setPhase p)) R) : (thenPhase p r).Ends D R :=
  ends_bind h fun _ hs => hs

/-- A command's outcome: where its operations complete with `P`, and where the abort of what they
fail in has `P`, the next state has `P`. -/
theorem commandOutcome_keeps {P R : State → Prop} {r : Res} {t : State} (hr : r.Ends P R)
    (ha : ∀ e u, R u → P (abort e u)) (h : commandOutcome r = .next t) : P t := by
  rcases commandOutcome_next.1 h with rfl | ⟨e, u, rfl, rfl⟩
  · exact hr
  · exact ha e u hr

/-- A stand-alone operation's outcome, likewise. -/
theorem unitOutcome_keeps {P D R : State → Prop} {spoil : State → State} {r : Res} {t : State}
    (hr : r.Ends D R) (hd : ∀ u, D u → P (u.setResult none))
    (ha : ∀ e u, R u → P ((spoil u).setResult (some e))) (h : unitOutcome spoil r = .next t) :
    P t := by
  rcases unitOutcome_next.1 h with ⟨u, rfl, rfl⟩ | ⟨e, u, rfl, rfl⟩
  · exact hd u hr
  · exact ha e u hr

/-! ### The frame of the component operations -/

/-- The registers that no component operation writes (30_encoding.md R74), with everything else at
its reset value. -/
def State.frame (s : State) : State :=
  { State.resetWith s.params with
    op := s.op
    phase := s.phase
    busy := s.busy
    done := s.done
    err := s.err
    errinfo := s.errinfo
    ilen := s.ilen
    olen := s.olen
    ibuf := s.ibuf
    pqItems := s.pqItems
    inputs := s.inputs }

/-- The second state has the first one's parameters, sequencer, host registers, IBUF, item port and
inputs. -/
def Keeps (s t : State) : Prop := t.frame = s.frame

namespace Keeps

variable {s t u : State}

theorem refl (s : State) : Keeps s s := rfl

theorem trans (h : Keeps s t) (h' : Keeps t u) : Keeps s u := Eq.trans h' h

theorem frame_congr {α : Type} (h : Keeps s t) (f : State → α) : f t.frame = f s.frame :=
  congrArg f h

theorem params (h : Keeps s t) : t.params = s.params := h.frame_congr State.params
theorem op (h : Keeps s t) : t.op = s.op := h.frame_congr State.op
theorem phase (h : Keeps s t) : t.phase = s.phase := h.frame_congr State.phase
theorem busy (h : Keeps s t) : t.busy = s.busy := h.frame_congr State.busy
theorem done (h : Keeps s t) : t.done = s.done := h.frame_congr State.done
theorem err (h : Keeps s t) : t.err = s.err := h.frame_congr State.err
theorem errinfo (h : Keeps s t) : t.errinfo = s.errinfo := h.frame_congr State.errinfo
theorem ilen (h : Keeps s t) : t.ilen = s.ilen := h.frame_congr State.ilen
theorem olen (h : Keeps s t) : t.olen = s.olen := h.frame_congr State.olen
theorem ibuf (h : Keeps s t) : t.ibuf = s.ibuf := h.frame_congr State.ibuf
theorem pqItems (h : Keeps s t) : t.pqItems = s.pqItems := h.frame_congr State.pqItems
theorem inputs (h : Keeps s t) : t.inputs = s.inputs := h.frame_congr State.inputs

theorem setPhase (h : Keeps s t) (p : Phase) : Keeps (s.setPhase p) (t.setPhase p) :=
  h.frame_congr fun u => u.setPhase p

end Keeps

/-! The frame rules of sequencing, loops and Need -/

theorem keeps_bind {s : State} {r : Res} {k : State → Res} (hr : r.Holds (Keeps s))
    (hk : ∀ t, (k t).Holds (Keeps t)) : (r.bind k).Holds (Keeps s) :=
  holds_bind_same hr fun t ht => holds_mono (hk t) fun _ => ht.trans

theorem keeps_forEach {α : Type} {body : α → State → Res} (h : ∀ x t, (body x t).Holds (Keeps t))
    (xs : List α) (s : State) : (forEach body xs s).Holds (Keeps s) :=
  holds_forEach xs s (.refl s) fun x _ t ht => holds_mono (h x t) fun _ => ht.trans

theorem keeps_need {n : Nat} {s : State} {k : List Byte → State → Res}
    (hk : ∀ bs t, (k bs t).Holds (Keeps t)) : (need n s k).Holds (Keeps s) :=
  holds_need (.refl s) (fun _ => hk [] s) fun _ => hk _ { s with rpos := s.rpos + n }

theorem keeps_needByte {s : State} {k : Byte → State → Res}
    (hk : ∀ b t, (k b t).Holds (Keeps t)) : (needByte s k).Holds (Keeps s) :=
  keeps_need fun bs t => hk (bs.headD 0#8) t

/-! The component operations -/

theorem emit_keeps (bs : List Byte) (s : State) : (emit bs s).Holds (Keeps s) := by
  rcases emit_cases bs s with ⟨_, h⟩ | ⟨_, h⟩ <;> rw [h] <;> exact .refl s

theorem pqInsert_keeps (q : QueueParams) (s : State) : (pqInsert q s).Holds (Keeps s) := by
  rcases pqInsert_cases q s with ⟨_, h⟩ | ⟨_, h⟩ <;> rw [h] <;> exact .refl s

theorem pqExtractMin_keeps (q : QueueParams) (s : State) :
    (pqExtractMin q s).Holds (Keeps s) := by
  rcases pqExtractMin_cases q s with ⟨_, h⟩ | ⟨_, _, _, h⟩ <;> rw [h] <;> exact .refl s

theorem pqBuild_keeps (q : QueueParams) (s : State) : (pqBuild q s).Holds (Keeps s) := by
  rcases pqBuild_cases q s with ⟨_, h⟩ | ⟨_, h⟩ <;> rw [h] <;> exact .refl s

theorem pqDecreaseKey_keeps (q : QueueParams) (s : State) :
    (pqDecreaseKey q s).Holds (Keeps s) := by
  rcases pqDecreaseKey_cases q s with ⟨_, h⟩ | ⟨_, _, _, h⟩ | ⟨_, _, _, h⟩ <;> rw [h] <;>
    exact .refl s

theorem fcCount_keeps (s : State) : (fcCount s).Holds (Keeps s) := by
  unfold fcCount
  split
  · trivial
  · exact .refl s

theorem addNode_keeps (n : Node) (s : State) : (addNode n s).Holds (Keeps s) :=
  pqInsert_keeps Config.treeQueue { s with arena := s.arena ++ [n], pqArgv := s.arena.length }

theorem addLeaf_keeps (x : Byte × Word) (s : State) : (addLeaf x s).Holds (Keeps s) := by
  unfold addLeaf
  split
  · exact .refl s
  · exact addNode_keeps _ s

theorem mergeOnce_keeps (s : State) : (mergeOnce s).Holds (Keeps s) :=
  keeps_bind (pqExtractMin_keeps _ s) fun s1 =>
    keeps_bind (pqExtractMin_keeps _ s1) fun s2 => addNode_keeps _ s2

theorem takeRoot_keeps (s : State) : (takeRoot s).Holds (Keeps s) :=
  keeps_bind (pqExtractMin_keeps _ s) fun t => Keeps.refl t

theorem tbBuild_keeps (s : State) : (tbBuild s).Holds (Keeps s) := by
  refine keeps_bind (keeps_forEach addLeaf_keeps _ { s with arena := [], heap := [] }) fun s1 => ?_
  split
  · exact .refl s1
  · exact keeps_bind (holds_mergeLoop _ s1 (.refl s1) fun t ht =>
      holds_mono (mergeOnce_keeps t) fun _ => ht.trans) takeRoot_keeps

theorem cgGen_keeps (s : State) : (cgGen s).Holds (Keeps s) := by
  unfold cgGen
  split <;> exact .refl s

theorem invertEntry_keeps (x : Byte × Bits) (s : State) : (invertEntry x s).Holds (Keeps s) := by
  unfold invertEntry
  split
  · exact .refl s
  · split <;> exact .refl s

theorem cgInvert_keeps (s : State) : (cgInvert s).Holds (Keeps s) :=
  keeps_forEach invertEntry_keeps _ { s with rev := [] }

theorem addLength_keeps (b : Byte) (s : State) : (addLength b s).Holds (Keeps s) := by
  unfold addLength
  split <;> exact .refl s

theorem putCode_keeps (b : Byte) (s : State) : (putCode b s).Holds (Keeps s) :=
  keeps_forEach (body := putBit) (fun _ t => Keeps.refl t) _ s

theorem bpEncode_keeps (s : State) : (bpEncode s).Holds (Keeps s) := by
  refine keeps_bind (keeps_forEach addLength_keeps _ (startEncode s)) fun s1 => ?_
  split
  · trivial
  · split
    · exact .refl s1
    · exact keeps_forEach putCode_keeps _ (startPayload s1)

theorem decodeBit_keeps (d : Nat) (s : State) : (decodeBit d s).Holds (Keeps s) := by
  unfold decodeBit
  dsimp only
  split
  · exact .refl s
  · exact keeps_bind (emit_keeps _ { s with acc := _ }) fun t => Keeps.refl t

theorem bpDecode_keeps (s : State) : (bpDecode s).Holds (Keeps s) := by
  refine keeps_bind (s := startDecode s) (holds_decodeLoop _ _ _ (.refl _) fun t ht =>
    holds_mono (decodeBit_keeps _ t) fun _ => ht.trans) fun t => ?_
  split <;> exact .refl t

theorem cfWrite_keeps (s : State) : (cfWrite s).Holds (Keeps s) :=
  keeps_forEach emit_keeps _ { s with wpos := 0 }

theorem storeEntry_keeps (sym : Byte) (chars : List Byte) (s : State) :
    (storeEntry sym chars s).Holds (Keeps s) := by
  unfold storeEntry
  split
  · exact .refl s
  · split
    · exact .refl s
    · split <;> exact .refl s

theorem readEntry_keeps (s : State) : (readEntry s).Holds (Keeps s) := by
  refine keeps_needByte fun _ s1 => keeps_needByte fun _ s2 => ?_
  split
  · exact .refl s2
  · exact keeps_need fun _ s3 => storeEntry_keeps _ _ s3

theorem readPayload_keeps (s : State) : (readPayload s).Holds (Keeps s) :=
  keeps_need fun _ s1 => keeps_need (s := { s1 with vbc := _, plen := _ }) fun _ s2 => Keeps.refl s2

theorem readHeader_keeps (s : State) : (readHeader s).Holds (Keeps s) :=
  keeps_need (s := { s with rpos := 0, rev := [] }) fun _ t => Keeps.refl t

theorem readBody_keeps (s : State) : (readBody s).Holds (Keeps s) :=
  keeps_bind (holds_readEntries _ s (.refl s) fun t ht =>
    holds_mono (readEntry_keeps t) fun _ => ht.trans) readPayload_keeps

theorem cfRead_keeps (s : State) : (cfRead s).Holds (Keeps s) :=
  keeps_bind (readHeader_keeps s) readBody_keeps

end Sys2Proof.Machine

namespace Sys2Proof.Machine

/-! ### A running command as a sequence of engine parts -/

/-- A command is running, in the given phase of its chain. -/
structure RunningAt (o : TopOp) (p : Phase) (s : State) : Prop where
  busy : s.busy = true
  op : s.op = o
  phase : s.phase = p

theorem RunningAt.of_keeps {o : TopOp} {p : Phase} {s t : State} (h : RunningAt o p s)
    (hk : Keeps s t) : RunningAt o p t :=
  ⟨hk.busy.trans h.busy, hk.op.trans h.op, hk.phase.trans h.phase⟩

/-- In phase `p` of the command `o` the engine's part is `part`; where it completes the command runs
on in phase `p'`, and where it fails the frame is as before. -/
def Advances (o : TopOp) (p p' : Phase) (part : State → Res) : Prop :=
  ∀ s, RunningAt o p s →
    enginePart s = part s ∧ (part s).Ends (RunningAt o p') (Keeps s)

theorem thenPhase_runningAt {o : TopOp} {p p' : Phase} {s : State} {r : Res}
    (h : RunningAt o p s) (hr : r.Holds (Keeps s)) :
    (thenPhase p' r).Ends (RunningAt o p') (Keeps s) :=
  ends_thenPhase (ends_of_holds hr
    (fun _ hk => ⟨hk.busy.trans h.busy, hk.op.trans h.op, rfl⟩) fun _ hk => hk)

theorem countPart_advances : Advances .compress .idle .counting countPart := fun s h =>
  ⟨by simp [enginePart, h.op, h.phase], thenPhase_runningAt h (fcCount_keeps s)⟩

theorem treePart_advances : Advances .compress .counting .treeBuilt treePart := fun s h =>
  ⟨by simp [enginePart, h.op, h.phase], thenPhase_runningAt h (tbBuild_keeps s)⟩

theorem codePart_advances : Advances .compress .treeBuilt .codesGenerated codePart := fun s h =>
  ⟨by simp [enginePart, h.op, h.phase],
    thenPhase_runningAt h (keeps_bind (cgGen_keeps s) cgInvert_keeps)⟩

theorem packPart_advances : Advances .compress .codesGenerated .packed packPart := fun s h =>
  ⟨by simp [enginePart, h.op, h.phase], thenPhase_runningAt h (bpEncode_keeps s)⟩

theorem writePart_advances : Advances .compress .packed .written writePart := fun s h =>
  ⟨by simp [enginePart, h.op, h.phase],
    ends_thenPhase (ends_bind
      (ends_of_holds (cfWrite_keeps s) (fun _ => h.of_keeps) fun _ hk => hk)
      fun _ ht => ⟨ht.busy, ht.op, rfl⟩)⟩

theorem headerPart_advances : Advances .decompress .idle .headerParsed headerPart := fun s h =>
  ⟨by simp [enginePart, h.op, h.phase], thenPhase_runningAt h (readHeader_keeps s)⟩

theorem tablePart_advances : Advances .decompress .headerParsed .tableLoaded tablePart :=
  fun s h => ⟨by simp [enginePart, h.op, h.phase], thenPhase_runningAt h (readBody_keeps s)⟩

theorem bitsPart_advances : Advances .decompress .tableLoaded .bitsWalked bitsPart := fun s h =>
  ⟨by simp [enginePart, h.op, h.phase], thenPhase_runningAt h (bpDecode_keeps s)⟩

theorem lengthPart_advances : Advances .decompress .bitsWalked .written lengthPart := fun s h =>
  ⟨by simp [enginePart, h.op, h.phase], ⟨h.busy, h.op, rfl⟩⟩

theorem enginePart_written {o : TopOp} {s : State} (ho : o ≠ .idle) (h : RunningAt o .written s) :
    enginePart s = finishPart s := by
  cases o with
  | idle => exact absurd rfl ho
  | compress => simp [enginePart, h.op, h.phase]
  | decompress => simp [enginePart, h.op, h.phase]

/-- The part that a turn of a running command takes is one of the eleven, at its own place. -/
theorem enginePart_ends {D R : State → Prop} {s : State} (hb : s.busy = true)
    (count : RunningAt .compress .idle s → (countPart s).Ends D R)
    (tree : RunningAt .compress .counting s → (treePart s).Ends D R)
    (code : RunningAt .compress .treeBuilt s → (codePart s).Ends D R)
    (pack : RunningAt .compress .codesGenerated s → (packPart s).Ends D R)
    (write : RunningAt .compress .packed s → (writePart s).Ends D R)
    (header : RunningAt .decompress .idle s → (headerPart s).Ends D R)
    (table : RunningAt .decompress .headerParsed s → (tablePart s).Ends D R)
    (bits : RunningAt .decompress .tableLoaded s → (bitsPart s).Ends D R)
    (length : RunningAt .decompress .bitsWalked s → (lengthPart s).Ends D R)
    (finish : (finishPart s).Ends D R) : (enginePart s).Ends D R := by
  unfold enginePart
  split
  · exact count ⟨hb, by assumption, by assumption⟩
  · exact tree ⟨hb, by assumption, by assumption⟩
  · exact code ⟨hb, by assumption, by assumption⟩
  · exact pack ⟨hb, by assumption, by assumption⟩
  · exact write ⟨hb, by assumption, by assumption⟩
  · exact finish
  · exact header ⟨hb, by assumption, by assumption⟩
  · exact table ⟨hb, by assumption, by assumption⟩
  · exact bits ⟨hb, by assumption, by assumption⟩
  · exact length ⟨hb, by assumption, by assumption⟩
  · exact finish
  · trivial

/-- An error raised in a part of a running command is raised with the frame as it was. -/
theorem enginePart_raise_keeps {s : State} (hb : s.busy = true) :
    (enginePart s).Ends (fun _ => True) (Keeps s) := by
  have raised {o : TopOp} {p p' : Phase} {part : State → Res} (hp : Advances o p p' part)
      (h : RunningAt o p s) : (part s).Ends (fun _ => True) (Keeps s) :=
    ends_mono (hp s h).2 (fun _ _ => trivial) fun _ hk => hk
  exact enginePart_ends hb (raised countPart_advances) (raised treePart_advances)
    (raised codePart_advances) (raised packPart_advances) (raised writePart_advances)
    (raised headerPart_advances) (raised tablePart_advances) (raised bitsPart_advances)
    (raised lengthPart_advances) trivial

section Chains

variable {D R : State → Prop}

/-- A chain grown by one part keeps what every engine part keeps. -/
theorem chain_part {o : TopOp} {p p' : Phase} {part : State → Res} {r : Res}
    (hparts : ∀ s, D s → s.busy = true → (enginePart s).Ends D R) (hp : Advances o p p' part)
    (hr : r.Ends (fun t => RunningAt o p t ∧ D t) R) :
    (r.bind part).Ends (fun t => RunningAt o p' t ∧ D t) R := by
  refine ends_bind hr fun t ⟨ht, hD⟩ => ?_
  obtain ⟨hpart, hrun⟩ := hp t ht
  have h := hparts t hD ht.busy
  rw [hpart] at h
  exact ends_mono (ends_and hrun h) (fun _ hu => hu) fun _ hu => hu.2

theorem chain_finish {o : TopOp} {r : Res} (ho : o ≠ .idle)
    (hparts : ∀ s, D s → s.busy = true → (enginePart s).Ends D R)
    (hr : r.Ends (fun t => RunningAt o .written t ∧ D t) R) : (r.bind finishPart).Ends D R := by
  refine ends_bind hr fun t ⟨ht, hD⟩ => ?_
  rw [← enginePart_written ho ht]
  exact hparts t hD ht.busy

theorem compressChain_ends {s : State}
    (hparts : ∀ s, D s → s.busy = true → (enginePart s).Ends D R)
    (hrun : RunningAt .compress .idle s) (hD : D s) : (compressChain s).Ends D R := by
  have started : (Res.done s).Ends (fun t => RunningAt .compress .idle t ∧ D t) R := ⟨hrun, hD⟩
  have counted := chain_part hparts countPart_advances started
  have built := chain_part hparts treePart_advances counted
  have coded := chain_part hparts codePart_advances built
  have packed := chain_part hparts packPart_advances coded
  have written := chain_part hparts writePart_advances packed
  exact chain_finish (by decide) hparts written

theorem decompressChain_ends {s : State}
    (hparts : ∀ s, D s → s.busy = true → (enginePart s).Ends D R)
    (hrun : RunningAt .decompress .idle s) (hD : D s) : (decompressChain s).Ends D R := by
  have started : (Res.done s).Ends (fun t => RunningAt .decompress .idle t ∧ D t) R :=
    ⟨hrun, hD⟩
  have parsed := chain_part hparts headerPart_advances started
  have loaded := chain_part hparts tablePart_advances parsed
  have walked := chain_part hparts bitsPart_advances loaded
  have written := chain_part hparts lengthPart_advances walked
  exact chain_finish (by decide) hparts written

end Chains

/-! ### The rule for invariants of the machine -/

/-- What a host or driver access while BUSY = 0 can do (10_state.md R26, R28, R37; 20_memory.md
R67). -/
inductive HostAccess (s : State) : State → Prop where
  | ilen (n : Word) : HostAccess s { s with ilen := n }
  | ibuf (a : Nat) (b : Byte) (h : a < s.params.ibufCap.toNat) :
      HostAccess s { s with ibuf := s.ibuf.write a b }
  | obuf (a : Nat) (b : Byte) (h : a < s.params.obufCap.toNat) :
      HostAccess s { s with obuf := s.obuf.write a b }
  | argv (v : Elem) (h : s.params.queue.isElem v = true) : HostAccess s { s with pqArgv := v }
  | argi (i : Nat) : HostAccess s { s with pqArgi := i }
  | items (l : List Elem) (h : ∀ e ∈ l, s.params.queue.isElem e = true) :
      HostAccess s { s with pqItems := l }

/-- `D` is kept by everything a step is made of; `R` is what the abort sequence needs of the state
an error was raised in. -/
structure StepInvariant (D R : State → Prop) : Prop where
  inputs : ∀ s l, D s → D { s with inputs := l }
  reset : ∀ s, D s → D s.applyReset
  access : ∀ s t, D s → s.busy = false → HostAccess s t → D t
  idle : ∀ s, D s → s.busy = false → s.phase = .idle
  issue : ∀ c s, D s → s.busy = false → (issue c s).Ends D R
  part : ∀ s, D s → s.busy = true → (enginePart s).Ends D R
  abort : ∀ e u, R u → D (abort e u)
  component : ∀ i s t, isComponent i = true → D s → s.busy = false → exec i s = .next t → D t

theorem writeIbuf_access {a : Nat} {b : Byte} {s t : State} (h : writeIbuf a b s = .next t) :
    HostAccess s t := by
  unfold writeIbuf at h
  split at h
  · cases h
    exact .ibuf a b (by assumption)
  · cases h

theorem writeObuf_access {a : Nat} {b : Byte} {s t : State} (h : writeObuf a b s = .next t) :
    HostAccess s t := by
  unfold writeObuf at h
  split at h
  · cases h
    exact .obuf a b (by assumption)
  · cases h

theorem setArgv_access {v : Elem} {s t : State}
    (h : ifElems [v] s (.next { s with pqArgv := v }) = .next t) : HostAccess s t := by
  obtain ⟨hv, ht⟩ := ifElems_next h
  cases ht
  exact .argv v (hv v (by simp))

theorem setItems_access {l : List Elem} {s t : State}
    (h : ifElems l s (.next { s with pqItems := l }) = .next t) : HostAccess s t := by
  obtain ⟨hl, ht⟩ := ifElems_next h
  cases ht
  exact .items l hl

/-- Command issue leaves the command it selects running in phase Idle. -/
theorem issue_runningAt {c : Byte} {o : TopOp} {s : State} (hc : commandOf c = some o)
    (hp : s.phase = .idle) : (issue c s).Ends (RunningAt o .idle) fun _ => True := by
  rcases issue_cases c s with ⟨_, h⟩ | ⟨_, _, _, h⟩ | ⟨o', ho', _, h⟩ <;> rw [h]
  · trivial
  · trivial
  · rw [hc] at ho'
    cases ho'
    exact ⟨rfl, rfl, hp⟩

namespace StepInvariant

variable {D R : State → Prop} (inv : StepInvariant D R) {s t : State}
include inv

theorem engineTurn (hD : D s) (h : engineTurn s = .next t) : D t := by
  rcases engineTurn_next h with ⟨_, rfl⟩ | ⟨hb, h⟩
  · exact hD
  · exact commandOutcome_keeps (inv.part s hD hb) inv.abort (commandOutcome_next.2 h)

/-- A whole command as one step: its issue and its chain. -/
theorem command {c : Byte} {o : TopOp} {chain : State → Res} (hc : commandOf c = some o)
    (hchain : ∀ u, RunningAt o .idle u → D u → (chain u).Ends D R) (hD : D s)
    (hb : s.busy = false) (h : commandOutcome ((Machine.issue c s).bind chain) = .next t) :
    D t := by
  have issued : (Machine.issue c s).Ends (fun u => RunningAt o .idle u ∧ D u) R :=
    ends_mono (ends_and (issue_runningAt hc (inv.idle s hD hb)) (inv.issue c s hD hb))
      (fun _ hu => hu) fun _ hu => hu.2
  exact commandOutcome_keeps (ends_bind issued fun u hu => hchain u hu.1 hu.2) inv.abort h

theorem exec {i : Instr} (hD : D s) (hb : s.busy = false) (h : exec i s = .next t) : D t := by
  by_cases hi : isComponent i = true
  · exact inv.component i s t hi hD hb h
  · obtain rfl | rfl : i = .compress ∨ i = .decompress := by
      cases i <;> simp [isComponent] at hi ⊢
    · have hx : Machine.exec .compress s = execCompress s := rfl
      rw [hx, execCompress, if_neg (by simp [hb])] at h
      exact inv.command rfl (fun _ => compressChain_ends inv.part) hD hb h
    · have hx : Machine.exec .decompress s = execDecompress s := rfl
      rw [hx, execDecompress, if_neg (by simp [hb])] at h
      exact inv.command rfl (fun _ => decompressChain_ends inv.part) hD hb h

theorem applyInput {x : Input} (hD : D s) (h : applyInput x s = .next t) : D t := by
  cases x with
  | reset =>
    cases h
    exact inv.reset s hD
  | writeCmd c =>
    rw [Machine.applyInput, writeCmd] at h
    split at h
    · cases h
      exact hD
    · exact commandOutcome_keeps (inv.issue c s hD (by simp_all)) inv.abort h
  | engine => exact inv.engineTurn hD h
  | poll =>
    rw [Machine.applyInput] at h
    split at h
    · exact inv.engineTurn (inv.inputs s _ hD) h
    · cases h
      exact hD
  | operate c =>
    obtain ⟨hb, h⟩ := whileIdle_next h
    obtain ⟨i, _, h⟩ := operate_next h
    exact inv.exec hD hb h
  | writeIlen n =>
    obtain ⟨hb, h⟩ := whileIdle_next h
    cases h
    exact inv.access _ _ hD hb (.ilen n)
  | writeIbuf a b =>
    obtain ⟨hb, h⟩ := whileIdle_next h
    exact inv.access _ _ hD hb (writeIbuf_access h)
  | writeObuf a b =>
    obtain ⟨hb, h⟩ := whileIdle_next h
    exact inv.access _ _ hD hb (writeObuf_access h)
  | setArgv v =>
    obtain ⟨hb, h⟩ := whileIdle_next h
    exact inv.access _ _ hD hb (setArgv_access h)
  | setArgi i =>
    obtain ⟨hb, h⟩ := whileIdle_next h
    cases h
    exact inv.access _ _ hD hb (.argi i)
  | setItems l =>
    obtain ⟨hb, h⟩ := whileIdle_next h
    exact inv.access _ _ hD hb (setItems_access h)

/-- An invariant of everything a step is made of is kept by every step. -/
theorem step (hD : D s) (h : step s = .next t) : D t := by
  rcases step_next h with ⟨_, h⟩ | ⟨x, rest, _, h⟩
  · exact inv.engineTurn hD h
  · exact inv.applyInput (inv.inputs s rest hD) h

end StepInvariant

/-! ### Component operations run stand-alone keep the frame -/

theorem unitOutcome_frame {spoil : State → State} {r : Res} {s t : State}
    (hr : r.Holds (Keeps s)) (h : unitOutcome spoil r = .next t)
    (hspoil : ∀ u, Keeps u (spoil u)) : Keeps s t :=
  unitOutcome_keeps (ends_of_holds hr (fun _ hu => hu) fun _ hu => hu)
    (fun _ hu => hu) (fun _ u hu => hu.trans (hspoil u)) h

/-- No component operation run stand-alone writes the sequencer or a host register, whether it
completes or fails (60_exceptions.md R222). -/
theorem component_keeps {i : Instr} {s t : State} (hi : isComponent i = true)
    (h : exec i s = .next t) : Keeps s t := by
  cases i with
  | compress => cases hi
  | decompress => cases hi
  | pqInsert => exact unitOutcome_frame (pqInsert_keeps _ s) h fun _ => rfl
  | pqExtractMin => exact unitOutcome_frame (pqExtractMin_keeps _ s) h fun _ => rfl
  | pqBuild => exact unitOutcome_frame (pqBuild_keeps _ s) h fun _ => rfl
  | pqDecreaseKey => exact unitOutcome_frame (pqDecreaseKey_keeps _ s) h fun _ => rfl
  | fcCount => exact unitOutcome_frame (fcCount_keeps s) h fun _ => rfl
  | tbBuild => exact unitOutcome_frame (tbBuild_keeps s) h fun _ => rfl
  | cgGen => exact unitOutcome_frame (cgGen_keeps s) h fun _ => rfl
  | cgInvert => exact unitOutcome_frame (cgInvert_keeps s) h fun _ => rfl
  | bpEncode => exact unitOutcome_frame (bpEncode_keeps s) h fun _ => rfl
  | bpDecode => exact unitOutcome_frame (bpDecode_keeps s) h fun _ => rfl
  | cfWrite => exact unitOutcome_frame (cfWrite_keeps s) h fun _ => rfl
  | cfRead => exact unitOutcome_frame (cfRead_keeps s) h fun _ => rfl

end Sys2Proof.Machine

namespace Sys2Proof.Machine

/-! ### The sequencer's invariant -/

/-- WPOS is a length that fits OBUF. -/
def WposFits (s : State) : Prop := s.wpos ≤ s.params.obufCap.toNat

theorem emit_wposFits (bs : List Byte) (s : State) (h : WposFits s) :
    (emit bs s).Holds WposFits := by
  rcases emit_cases bs s with ⟨_, he⟩ | ⟨hfit, he⟩ <;> rw [he]
  · exact h
  · exact hfit

theorem cfWrite_wposFits (s : State) : (cfWrite s).Holds WposFits :=
  holds_forEach _ { s with wpos := 0 } (Nat.zero_le _) fun bs _ t => emit_wposFits bs t

theorem decodeBit_wposFits (d : Nat) (s : State) (h : WposFits s) :
    (decodeBit d s).Holds WposFits := by
  unfold decodeBit
  dsimp only
  split
  · exact h
  · exact holds_bind_same (emit_wposFits _ { s with acc := _ } h) fun t ht => ht

theorem bpDecode_wposFits (s : State) : (bpDecode s).Holds WposFits := by
  refine holds_bind_same (holds_decodeLoop _ _ (startDecode s) (Nat.zero_le _)
    (decodeBit_wposFits _)) fun t ht => ?_
  split <;> exact ht

namespace SequencerOk

variable {s t : State}

/-- A running command has neither DONE nor ERR set. -/
theorem running_flags (h : SequencerOk s) (hb : s.busy = true) :
    s.done = false ∧ s.err = false := by
  have h1 := h.oneFlag
  cases hd : s.done <;> cases he : s.err <;> simp_all

theorem of_keeps (h : SequencerOk s) (hk : Keeps s t) (hw : t.phase = .bitsWalked → WposFits t) :
    SequencerOk t where
  oneFlag := by rw [hk.busy, hk.done, hk.err]; exact h.oneFlag
  idle := by rw [hk.busy, hk.op, hk.phase]; exact h.idle
  running := by rw [hk.busy, hk.op, hk.phase]; exact h.running
  legal := by
    rw [hk.busy, hk.op, lengthLegal, hk.ilen, hk.params]
    exact h.legal
  report := by rw [hk.err, hk.errinfo]; exact h.report
  reserved := by rw [hk.errinfo]; exact h.reserved
  noOutput := by rw [hk.err, hk.olen]; exact h.noOutput
  fits := by rw [hk.olen, hk.params]; exact h.fits
  walked := hw

/-- A running command goes on to a phase of its chain. -/
theorem advance {p : Phase} (h : SequencerOk s) (hb : s.busy = true) (hk : Keeps s t)
    (hp : runningPair s.op p = true) (hw : p = .bitsWalked → WposFits t) :
    SequencerOk (t.setPhase p) := by
  have moved : SequencerOk (State.setPhase { s with wpos := 0 } p) :=
    { h with
      idle := fun hf => absurd (hb.symm.trans hf) (by decide)
      running := fun _ => hp
      walked := fun _ => Nat.zero_le _ }
  exact moved.of_keeps (hk.setPhase p) hw

theorem setOlen (h : SequencerOk s) (hb : s.busy = true) (hw : WposFits s) :
    SequencerOk s.setOlen :=
  { h with
    noOutput := fun he => absurd ((h.running_flags hb).2.symm.trans he) (by decide)
    fits := by
      rw [setOlen_olen, BitVec.toNat_ofNat]
      exact (Nat.mod_le _ _).trans hw }

theorem complete (h : SequencerOk s) (hb : s.busy = true) : SequencerOk s.complete :=
  { h with
    oneFlag := by simp [(h.running_flags hb).2]
    idle := fun _ => ⟨rfl, rfl⟩
    running := fun hf => absurd hf (by simp)
    legal := fun hf => absurd hf (by simp)
    walked := fun hp => absurd hp (by simp) }

/-- An access while BUSY = 0 touches nothing the invariant speaks of but ILEN, whose legality is
claimed of a running command alone. -/
theorem access (h : SequencerOk s) (hb : s.busy = false) (ha : HostAccess s t) :
    SequencerOk t := by
  cases ha with
  | ilen n => exact { h with legal := fun hf => absurd (hb.symm.trans hf) (by decide) }
  | ibuf a b _ => exact { h with }
  | obuf a b _ => exact { h with }
  | argv v _ => exact { h with }
  | argi i => exact { h with }
  | items l _ => exact { h with }

end SequencerOk

theorem sequencerOk_resetWith (p : Params) : SequencerOk (State.resetWith p) where
  oneFlag := rfl
  idle := fun _ => ⟨rfl, rfl⟩
  running := fun h => absurd h (by simp [State.resetWith])
  legal := fun h => absurd h (by simp [State.resetWith])
  report := fun _ => rfl
  reserved := by simp [State.resetWith]
  noOutput := fun _ => rfl
  fits := Nat.zero_le _
  walked := fun _ => Nat.zero_le _

theorem sequencerOk_reset (s : State) : SequencerOk s.applyReset :=
  { sequencerOk_resetWith s.params with }

theorem errInfoWord_reserved (e : Err) (p : Phase) (o : TopOp) :
    (errInfoWord e p o).extractLsb' 14 18 = 0#18 := by
  cases e <;> cases p <;> cases o <;> rfl

/-- The abort sequence establishes the invariant in every state. -/
theorem sequencerOk_abort (e : Err) (s : State) : SequencerOk (abort e s) where
  oneFlag := rfl
  idle := fun _ => ⟨rfl, rfl⟩
  running := fun h => absurd h (by simp [abort])
  legal := fun h => absurd h (by simp [abort])
  report := fun h => absurd h (by simp [abort])
  reserved := errInfoWord_reserved _ _ _
  noOutput := fun _ => rfl
  fits := Nat.zero_le _
  walked := fun h => absurd h (by simp [abort])

theorem sequencerOk_issue (c : Byte) {s : State} (h : SequencerOk s) (hb : s.busy = false) :
    (issue c s).Ends SequencerOk fun _ => True := by
  rcases issue_cases c s with ⟨_, hi⟩ | ⟨_, _, _, hi⟩ | ⟨o, ho, hl, hi⟩ <;> rw [hi]
  · trivial
  · trivial
  · have hphase : s.phase = .idle := (h.idle hb).2
    exact
      { oneFlag := by simp
        idle := fun hf => absurd hf (by simp)
        running := fun _ => by
          cases o with
          | idle => exact absurd ho (by unfold commandOf; split <;> simp)
          | compress => simp [hphase, runningPair]
          | decompress => simp [hphase, runningPair]
        legal := fun _ => hl
        report := fun _ => rfl
        reserved := by simp
        noOutput := fun _ => rfl
        fits := Nat.zero_le _
        walked := fun hp => absurd (hphase.symm.trans hp) (by decide) }

/-- A part whose operations keep the frame and end with the change to a phase of the chain. -/
theorem sequencerOk_thenPhase {p : Phase} {s : State} {r : Res} (h : SequencerOk s)
    (hb : s.busy = true) (hp : runningPair s.op p = true) (hne : p ≠ .bitsWalked)
    (hr : r.Holds (Keeps s)) : (thenPhase p r).Ends SequencerOk fun _ => True :=
  ends_thenPhase (ends_top_of_holds hr fun _ hk => h.advance hb hk hp fun he => absurd he hne)

theorem sequencerOk_writePart {s : State} (h : SequencerOk s)
    (hrun : RunningAt .compress .packed s) : (writePart s).Ends SequencerOk fun _ => True := by
  refine ends_thenPhase (ends_bind (D := fun t => Keeps s t ∧ WposFits t)
    (ends_top_of_holds (holds_and (cfWrite_keeps s) (cfWrite_wposFits s)) fun _ ht => ht)
    fun t ⟨hk, ht⟩ => ?_)
  have hw : SequencerOk (t.setPhase .written) :=
    h.advance hrun.busy hk (by rw [hrun.op]; rfl) fun hp => absurd hp (by decide)
  exact hw.setOlen (hk.busy.trans hrun.busy) ht

theorem sequencerOk_bitsPart {s : State} (h : SequencerOk s)
    (hrun : RunningAt .decompress .tableLoaded s) :
    (bitsPart s).Ends SequencerOk fun _ => True :=
  ends_thenPhase (ends_top_of_holds (holds_and (bpDecode_keeps s) (bpDecode_wposFits s))
    fun _ ⟨hk, ht⟩ => h.advance hrun.busy hk (by rw [hrun.op]; rfl) fun _ => ht)

theorem sequencerOk_lengthPart {s : State} (h : SequencerOk s)
    (hrun : RunningAt .decompress .bitsWalked s) : SequencerOk (s.setOlen.setPhase .written) :=
  have hw : SequencerOk (s.setPhase .written) :=
    h.advance hrun.busy (.refl s) (by rw [hrun.op]; rfl) fun hp => absurd hp (by decide)
  hw.setOlen hrun.busy (h.walked hrun.phase)

/-- Every part of a running command keeps the invariant. -/
theorem sequencerOk_enginePart {s : State} (h : SequencerOk s) (hb : s.busy = true) :
    (enginePart s).Ends SequencerOk fun _ => True :=
  enginePart_ends hb
    (count := fun hrun =>
      sequencerOk_thenPhase h hb (by rw [hrun.op]; rfl) (by decide) (fcCount_keeps s))
    (tree := fun hrun =>
      sequencerOk_thenPhase h hb (by rw [hrun.op]; rfl) (by decide) (tbBuild_keeps s))
    (code := fun hrun =>
      sequencerOk_thenPhase h hb (by rw [hrun.op]; rfl) (by decide)
        (keeps_bind (cgGen_keeps s) cgInvert_keeps))
    (pack := fun hrun =>
      sequencerOk_thenPhase h hb (by rw [hrun.op]; rfl) (by decide) (bpEncode_keeps s))
    (write := sequencerOk_writePart h)
    (header := fun hrun =>
      sequencerOk_thenPhase h hb (by rw [hrun.op]; rfl) (by decide) (readHeader_keeps s))
    (table := fun hrun =>
      sequencerOk_thenPhase h hb (by rw [hrun.op]; rfl) (by decide) (readBody_keeps s))
    (bits := sequencerOk_bitsPart h)
    (length := sequencerOk_lengthPart h)
    (finish := h.complete hb)

/-- A component operation run stand-alone leaves an idle machine as it is. -/
theorem sequencerOk_component {i : Instr} {s t : State} (hi : isComponent i = true)
    (h : SequencerOk s) (hb : s.busy = false) (he : exec i s = .next t) : SequencerOk t := by
  have hk : Keeps s t := component_keeps hi he
  exact h.of_keeps hk fun hp =>
    absurd ((h.idle hb).2.symm.trans (hk.phase.symm.trans hp)) (by decide)

theorem sequencerOk_stepInvariant : StepInvariant SequencerOk fun _ => True where
  inputs := fun _ _ h => { h with }
  reset := fun s _ => sequencerOk_reset s
  access := fun _ _ h hb => h.access hb
  idle := fun _ h hb => (h.idle hb).2
  issue := fun c _ h hb => sequencerOk_issue c h hb
  part := fun _ h hb => sequencerOk_enginePart h hb
  abort := fun e u _ => sequencerOk_abort e u
  component := fun _ _ _ hi h hb he => sequencerOk_component hi h hb he

/-- Settles O14: everything a step is made of keeps the sequencer's invariant. -/
theorem sequencerStaysConsistent : Obligations.SequencerStaysConsistent :=
  fun _ _ h hstep => sequencerOk_stepInvariant.step h hstep

end Sys2Proof.Machine

namespace Sys2Proof.Machine

/-! ### The STATUS word, ignored commands, and the invariants at reset -/

/-- Settles O8: the write is taken off the inputs, and `writeCmd` does nothing while BUSY = 1. -/
theorem aWriteToCmdWhileBusyIsIgnored : Obligations.AWriteToCmdWhileBusyIsIgnored := by
  intro s c rest hb hi
  have taken : step s = writeCmd c { s with inputs := rest } := by
    rw [step, advance, hi]
    rfl
  rw [taken, writeCmd, if_pos hb]

/-- The bits of the seven fields that make a STATUS word, at the width the concatenation has. -/
theorem statusFields_getLsbD (o : BitVec 2) (p : BitVec 4) (e d b : Bool) (i : Nat) :
    (0#22 ++ o ++ p ++ 0#1 ++ BitVec.ofBool e ++ BitVec.ofBool d ++ BitVec.ofBool b).getLsbD i =
      if i = 0 then b else if i = 1 then d else if i = 2 then e else if i = 3 then false
      else if i < 8 then p.getLsbD (i - 4) else o.getLsbD (i - 8) := by
  simp only [BitVec.getLsbD_append, BitVec.getLsbD_ofBool]
  match i with
  | 0 | 1 | 2 | 3 => simp
  | i + 4 => grind

/-- The STATUS word, bit by bit. -/
theorem statusWord_getLsbD (s : State) (i : Nat) :
    (statusWord s).getLsbD i =
      if i = 0 then s.busy else if i = 1 then s.done else if i = 2 then s.err
      else if i = 3 then false
      else if i < 8 then (phaseCode s.phase).getLsbD (i - 4)
      else (topOpCode s.op).getLsbD (i - 8) :=
  statusFields_getLsbD _ _ _ _ _ i

/-- A field of the STATUS word, from its bits. -/
theorem statusWord_field {n : Nat} (s : State) (k : Nat) (x : BitVec n)
    (h : ∀ i, i < n → (statusWord s).getLsbD (k + i) = x.getLsbD i) :
    (statusWord s).extractLsb' k n = x := by
  apply BitVec.eq_of_getLsbD_eq
  intro i hi
  rw [BitVec.getLsbD_extractLsb', h i hi]
  simp [hi]

/-- Settles O11: the numbers by computation, the fields bit by bit. -/
theorem statusWordHasTheStatedFields : Obligations.StatusWordHasTheStatedFields := by
  refine ⟨⟨rfl, rfl, rfl⟩, ⟨rfl, rfl, rfl, rfl, rfl, rfl, rfl, rfl, rfl⟩, fun s => ?_⟩
  refine ⟨statusWord_getLsbD s 0, statusWord_getLsbD s 1, statusWord_getLsbD s 2,
    statusWord_getLsbD s 3, ?phase, ?op, ?rest⟩
  case phase =>
    refine statusWord_field s 4 _ fun i hi => ?_
    rw [statusWord_getLsbD]
    grind
  case op =>
    refine statusWord_field s 8 _ fun i hi => ?_
    rw [statusWord_getLsbD]
    grind
  case rest =>
    refine statusWord_field s 10 _ fun i hi => ?_
    rw [statusWord_getLsbD]
    have : (topOpCode s.op).getLsbD (2 + i) = false := BitVec.getLsbD_of_ge _ _ (by omega)
    grind

/-! ### What an element register holds -/

/-- A register that holds elements of T holds every one of them. -/
theorem fits_of_isElem {q : QueueParams} {e : Elem} (h : q.isElem e = true) : q.fits e = true := by
  unfold QueueParams.isElem at h
  unfold QueueParams.fits QueueParams.bound
  cases hq : q.elems with
  | none => rfl
  | some n =>
    rw [hq] at h
    simp only [decide_eq_true_eq] at h
    simp [h]

/-- It holds every node index of 9 bits too (40_priority_queue.md R115; log 23). -/
theorem fits_of_lt {q : QueueParams} {e : Elem} (h : e < 512) : q.fits e = true := by
  unfold QueueParams.fits QueueParams.bound
  cases q.elems with
  | none => rfl
  | some n => simp [h]

@[simp] theorem fits_cut (q : QueueParams) (e : Elem) : q.fits (q.cut e) = true := by
  unfold QueueParams.fits QueueParams.cut QueueParams.bound
  cases q.elems with
  | none => rfl
  | some n =>
    have hpos : 0 < max n 512 := lt_of_lt_of_le (by decide) (le_max_right n 512)
    simpa using Nat.mod_lt e hpos

@[simp] theorem fits_zero (q : QueueParams) : q.fits 0 = true := by
  unfold QueueParams.fits QueueParams.bound
  cases q.elems with
  | none => rfl
  | some n => simp

/-! ### The invariants at reset -/

theorem widthsOk_resetWith (p : Params) : WidthsOk (State.resetWith p) where
  size := Nat.zero_le _
  nodes := Nat.zero_le _
  rev := Nat.zero_le _
  codes := fun b => by simp [State.resetWith]
  revBits := by simp [State.resetWith]
  acc := Nat.zero_le _
  rpos := Nat.two_pow_pos _
  wpos := Nat.two_pow_pos _
  bitpos := Nat.two_pow_pos _
  argv := fits_zero _
  res := fits_zero _
  items := by simp [State.resetWith]
  elems := by simp [State.resetWith]
  header := fun _ => rfl

/-- Settles O18: after reset every list is empty, every register 0 and every buffer unwritten. -/
theorem invariantsHoldAtReset : Obligations.InvariantsHoldAtReset := fun p =>
  ⟨sequencerOk_resetWith p, widthsOk_resetWith p, resetWith_wf p, by
    simp [BuffersInBounds, State.resetWith]⟩

end Sys2Proof.Machine

namespace Sys2Proof.Machine

/-! ### The sifts rearrange the elements of a heap -/

theorem swapAt_perm (h : List Elem) (i j : Nat) : (swapAt h i j).Perm h := by
  unfold swapAt
  split
  next a b ha hb =>
    obtain ⟨hi, rfl⟩ := List.getElem?_eq_some_iff.1 ha
    obtain ⟨hj, rfl⟩ := List.getElem?_eq_some_iff.1 hb
    exact List.set_set_perm hi hj
  next => exact .refl h

section Sifts

variable (less : Elem → Elem → Bool)

theorem siftUpLoop_perm (n : Nat) (h : List Elem) (i : Nat) : (siftUpLoop less n h i).Perm h := by
  induction n generalizing h i with
  | zero => exact .refl h
  | succ n ih =>
    rw [siftUpLoop]
    split
    · exact (ih _ _).trans (swapAt_perm h _ _)
    · exact .refl h

theorem siftUp_perm (h : List Elem) (i : Nat) : (siftUp less h i).Perm h :=
  siftUpLoop_perm less i h i

theorem siftDownLoop_perm (n : Nat) (h : List Elem) (i : Nat) :
    (siftDownLoop less n h i).Perm h := by
  induction n generalizing h i with
  | zero => exact .refl h
  | succ n ih =>
    rw [siftDownLoop]
    split
    · exact .refl h
    · exact (ih _ _).trans (swapAt_perm h _ _)

theorem siftDown_perm (h : List Elem) (i : Nat) : (siftDown less h i).Perm h :=
  siftDownLoop_perm less _ h i

theorem heapify_perm (k : Nat) (h : List Elem) : (heapify less k h).Perm h := by
  induction k generalizing h with
  | zero => exact .refl h
  | succ k ih => exact (ih _).trans (siftDown_perm less h k)

theorem heapInsert_perm (h : List Elem) (v : Elem) : (heapInsert less h v).Perm (v :: h) :=
  (siftUp_perm less _ _).trans (List.perm_append_singleton v h)

theorem heapExtract_perm (r : Elem) (l : List Elem) : (heapExtract less (r :: l)).Perm l := by
  rcases List.eq_nil_or_concat' l with rfl | ⟨m, v, rfl⟩
  · exact .refl _
  · rw [← List.cons_append, heapExtract_more]
    exact (siftDown_perm less _ 0).trans (List.perm_append_singleton v m).symm

theorem heapBuild_perm (items : List Elem) : (heapBuild less items).Perm items :=
  heapify_perm less _ items

theorem heapDecrease_perm (h : List Elem) (i : Nat) (v : Elem) :
    (heapDecrease less h i v).Perm (h.set i v) := siftUp_perm less _ i

end Sifts

end Sys2Proof.Machine

namespace Sys2Proof.Machine

/-! ### Counted loops -/

/-- A loop whose body takes stage `j` to stage `j + 1`. -/
theorem ends_forEach {α : Type} {P : Nat → State → Prop} {R : State → Prop}
    {body : α → State → Res} (xs : List α) (k : Nat) (s : State) (hs : P k s)
    (h : ∀ x ∈ xs, ∀ j, j < k + xs.length → ∀ t, P j t → (body x t).Ends (P (j + 1)) R) :
    (forEach body xs s).Ends (P (k + xs.length)) R := by
  induction xs generalizing k s with
  | nil => exact hs
  | cons x xs ih =>
    rw [List.length_cons, ← Nat.add_assoc, Nat.add_right_comm] at h ⊢
    refine ends_bind (h x (by simp) k (by omega) s hs) fun t ht => ?_
    exact ih (k + 1) t ht fun y hy => h y (by simp [hy])

theorem ends_decodeLoop {P : Nat → State → Prop} {R : State → Prop} (d n k : Nat) (s : State)
    (hs : P k s)
    (h : ∀ j, j < k + n → ∀ t, P j t → (decodeBit d t).Ends (P (j + 1)) R) :
    (decodeLoop d n s).Ends (P (k + n)) R := by
  induction n generalizing k s with
  | zero => exact hs
  | succ n ih =>
    rw [← Nat.add_assoc, Nat.add_right_comm] at h ⊢
    refine ends_bind (h k (by omega) s hs) fun t ht => ?_
    exact ih (k + 1) t ht h

/-! ### The width invariant under the host's accesses, the flags and the free values -/

@[simp] theorem spoilCode_code (s : State) :
    s.spoilCode.code = tableOf fun k => (Config.freeBits s.fresh k).take 255 := rfl

@[simp] theorem spoilRev_rev (s : State) :
    s.spoilRev.rev =
      ((Config.freeRev s.fresh).take 256).map fun e => { e with bits := e.bits.take 255 } := rfl

namespace WidthsOk

variable {s t : State}

theorem setPhase (h : WidthsOk s) {p : Phase} (hp : p ≠ .headerParsed) :
    WidthsOk (s.setPhase p) := { h with header := fun he => absurd he hp }

theorem access (h : WidthsOk s) (ha : HostAccess s t) : WidthsOk t := by
  cases ha with
  | ilen n => exact { h with }
  | ibuf a b _ => exact { h with }
  | obuf a b _ => exact { h with }
  | argv v hv => exact { h with argv := fits_of_isElem hv }
  | argi i => exact { h with }
  | items l hl => exact { h with items := fun e he => fits_of_isElem (hl e he) }

theorem spoilAcc (h : WidthsOk s) : WidthsOk s.spoilAcc :=
  { h with acc := List.length_take_le _ _ }

theorem spoilWpos (h : WidthsOk s) : WidthsOk s.spoilWpos :=
  { h with wpos := Nat.mod_lt _ (Nat.two_pow_pos 33) }

theorem spoilCode (h : WidthsOk s) : WidthsOk s.spoilCode :=
  { h with codes := fun b => by simp }

end WidthsOk

theorem widthsOk_reset (s : State) : WidthsOk s.applyReset :=
  { widthsOk_resetWith s.params with }

/-! ### REV: the width invariant apart from it, and what it may hold -/

/-- Everything but REV is within its width. -/
def RevRest (s : State) : Prop := WidthsOk { s with rev := [] }

/-- The entries of REV fit: at most 256, each of at most 255 bits. -/
def RevFits (rev : List RevEntry) : Prop := rev.length ≤ 256 ∧ ∀ e ∈ rev, e.bits.length ≤ 255

theorem WidthsOk.revRest {s : State} (h : WidthsOk s) : RevRest s :=
  { h with rev := Nat.zero_le _, revBits := by simp, header := fun _ => rfl }

theorem RevRest.widthsOk {s : State} (h : RevRest s) (hr : RevFits s.rev)
    (hp : s.phase = .headerParsed → s.rev = []) : WidthsOk s :=
  { h with rev := hr.1, revBits := hr.2, header := hp }

theorem RevRest.setPhase {s : State} (h : RevRest s) (hr : RevFits s.rev) {p : Phase}
    (hp : p = .headerParsed → s.rev = []) : WidthsOk (s.setPhase p) :=
  { h with rev := hr.1, revBits := hr.2, header := hp }

theorem revFits_spoilRev (s : State) : RevFits s.spoilRev.rev := by
  refine ⟨?_, ?_⟩
  · simp
  · intro e he
    rw [spoilRev_rev] at he
    obtain ⟨x, _, rfl⟩ := List.mem_map.1 he
    exact List.length_take_le _ _

theorem RevRest.spoilRev {s : State} (h : RevRest s) (hp : s.phase ≠ .headerParsed) :
    WidthsOk s.spoilRev :=
  RevRest.widthsOk (s := s.spoilRev) { h with } (revFits_spoilRev s) fun he => absurd he hp

/-! ### The tree: the width invariant apart from it, and what TB.BUILD's loop keeps -/

/-- Everything but ARENA, HEAP and the queue's registers is within its width. -/
def TreeRest (s : State) : Prop :=
  WidthsOk { s with arena := [], heap := [], pqArgv := 0, pqRes := 0 }

theorem WidthsOk.treeRest {s : State} (h : WidthsOk s) : TreeRest s :=
  { h with
    size := Nat.zero_le _
    nodes := Nat.zero_le _
    argv := fits_zero _
    res := fits_zero _
    elems := by simp }

theorem widthsOk_of_tree {s : State} (h : TreeRest s)
    (size : s.heap.length ≤ s.params.queue.cap) (nodes : s.arena.length ≤ 511)
    (argv : s.params.queue.fits s.pqArgv = true) (res : s.params.queue.fits s.pqRes = true)
    (elems : ∀ e ∈ s.heap, s.params.queue.fits e = true) : WidthsOk s :=
  { h with size := size, nodes := nodes, argv := argv, res := res, elems := elems }

theorem spoilTree_heap_fits (s : State) :
    ∀ e ∈ s.spoilTree.heap, s.params.queue.fits e = true := by
  intro e he
  rw [spoilTree_heap] at he
  obtain ⟨x, _, rfl⟩ := List.mem_map.1 he
  exact fits_cut _ x

theorem TreeRest.spoilTree {s : State} (h : TreeRest s) : WidthsOk s.spoilTree :=
  widthsOk_of_tree (s := s.spoilTree) { h with } (by simp) (by simp) (fits_cut _ _) (fits_cut _ _)
    (spoilTree_heap_fits s)

/-! ### The abort sequence -/

/-- What the abort sequence needs: the item port within its width, and where no command runs all of
the invariant, for then the working storage stays. -/
structure Abortable (s : State) : Prop where
  items : ∀ e ∈ s.pqItems, s.params.queue.fits e = true
  stored : s.busy = false → WidthsOk s

/-- The abort sequence leaves the working storage free within its widths. -/
theorem widthsOk_spoilStorage {s : State}
    (h : ∀ e ∈ s.pqItems, s.params.queue.fits e = true) :
    WidthsOk (s.spoilStorage.setPhase .idle) where
  size := by simp [State.spoilStorage]
  nodes := by simp [State.spoilStorage]
  rev := by simp [State.spoilStorage]
  codes := fun b => by simp [State.spoilStorage]
  revBits := fun e he => (revFits_spoilRev s).2 e (by simpa [State.spoilStorage] using he)
  acc := by simp [State.spoilStorage]
  rpos := by simpa [State.spoilStorage] using Nat.mod_lt _ (Nat.two_pow_pos 33)
  wpos := by simpa [State.spoilStorage] using Nat.mod_lt _ (Nat.two_pow_pos 33)
  bitpos := by simpa [State.spoilStorage] using Nat.mod_lt _ (Nat.two_pow_pos 40)
  argv := by simp [State.spoilStorage]
  res := by simp [State.spoilStorage]
  items := by simpa [State.spoilStorage] using h
  elems := fun e he => spoilTree_heap_fits s e (by simpa [State.spoilStorage] using he)
  header := fun hp => absurd hp (by simp)

theorem widthsOk_abort {s : State} (e : Err) (h : Abortable s) : WidthsOk (abort e s) := by
  unfold abort
  cases hb : s.busy with
  | false => exact { h.stored hb with header := fun hp => absurd hp (by simp) }
  | true => exact { widthsOk_spoilStorage h.items with header := fun hp => absurd hp (by simp) }

/-! ### The PriorityQueue -/

theorem pqInsert_widthsOk {s : State} (h : WidthsOk s) :
    (pqInsert s.params.queue s).Holds WidthsOk := by
  rcases pqInsert_cases s.params.queue s with ⟨_, hr⟩ | ⟨hne, hr⟩ <;> rw [hr]
  · exact h
  · refine
      { h with
        size := ?_
        elems := fun e he => ?_ }
    · have := h.size
      simp only [heapInsert_length]
      omega
    · rcases List.mem_cons.1 ((heapInsert_perm _ _ _).mem_iff.1 he) with rfl | he
      · exact h.argv
      · exact h.elems e he

theorem pqExtractMin_widthsOk {s : State} (h : WidthsOk s) :
    (pqExtractMin s.params.queue s).Holds WidthsOk := by
  rcases pqExtractMin_cases s.params.queue s with ⟨_, hr⟩ | ⟨r, l, hl, hr⟩ <;> rw [hr]
  · exact h
  · refine
      { h with
        size := ?_
        res := h.elems r (by simp [hl])
        elems := fun e he => ?_ }
    · have := h.size
      simp only [heapExtract_length]
      omega
    · simp only [hl] at he
      exact h.elems e (by simp [hl, (heapExtract_perm _ r l).mem_iff.1 he])

theorem pqBuild_widthsOk {s : State} (h : WidthsOk s) :
    (pqBuild s.params.queue s).Holds WidthsOk := by
  rcases pqBuild_cases s.params.queue s with ⟨_, hr⟩ | ⟨hle, hr⟩ <;> rw [hr]
  · exact h
  · exact
      { h with
        size := by simpa using hle
        elems := fun e he => h.items e ((heapBuild_perm _ _).mem_iff.1 he) }

theorem pqDecreaseKey_widthsOk {s : State} (h : WidthsOk s) :
    (pqDecreaseKey s.params.queue s).Holds WidthsOk := by
  rcases pqDecreaseKey_cases s.params.queue s with ⟨_, hr⟩ | ⟨_, _, _, hr⟩ | ⟨_, _, _, hr⟩ <;>
    rw [hr]
  · exact h
  · exact h
  · refine
      { h with
        size := by simpa using h.size
        elems := fun e he => ?_ }
    rcases List.mem_or_eq_of_mem_set ((heapDecrease_perm _ _ _ _).mem_iff.1 he) with he | rfl
    · exact h.elems e he
    · exact h.argv

/-! ### FC.COUNT and TB.BUILD -/

theorem fcCount_widthsOk {s : State} (h : WidthsOk s) : (fcCount s).Holds WidthsOk := by
  unfold fcCount
  split
  · trivial
  · exact { h with }

/-- TB.BUILD at work: NNODES and SIZE together at most `n`, every queued element a node index. -/
structure Building (n : Nat) (s : State) : Prop where
  rest : TreeRest s
  room : s.arena.length + s.heap.length ≤ n
  argv : s.params.queue.fits s.pqArgv = true
  res : s.params.queue.fits s.pqRes = true
  small : ∀ e ∈ s.heap, e < 512

/-- An extraction frees the slot of one node index. -/
theorem pqExtractMin_building {n : Nat} {s : State} (q : QueueParams) (h : Building (n + 1) s) :
    (pqExtractMin q s).Ends (Building n) TreeRest := by
  rcases pqExtractMin_cases q s with ⟨_, hr⟩ | ⟨r, l, hl, hr⟩ <;> rw [hr]
  · exact h.rest
  · refine ⟨{ h.rest with }, ?_, h.argv, fits_of_lt (h.small r (by simp [hl])), fun e he => ?_⟩
    · have := h.room
      simp only [heapExtract_length, hl, List.length_cons] at this ⊢
      omega
    · simp only [hl] at he
      exact h.small e (by simp [hl, (heapExtract_perm _ r l).mem_iff.1 he])

/-- Adding a node writes its record and queues its index, unless the queue is full
(41_tree_builder.md R123; 40_priority_queue.md R105). -/
theorem addNode_cases (x : Node) (s : State) :
    (s.heap.length = 256 ∧ addNode x s =
      .raise .overflow { s with arena := s.arena ++ [x], pqArgv := s.arena.length }) ∨
    (s.heap.length ≠ 256 ∧ addNode x s = .done { s with
      arena := s.arena ++ [x]
      pqArgv := s.arena.length
      heap := heapInsert (nodeLess (s.arena ++ [x])) s.heap s.arena.length }) :=
  pqInsert_cases Config.treeQueue { s with arena := s.arena ++ [x], pqArgv := s.arena.length }

/-- A node takes one ARENA record and one slot of the queue, while 9 bits index the record. -/
theorem addNode_building {n : Nat} {s : State} (x : Node) (h : Building n s) (hn : n < 512) :
    (addNode x s).Ends (Building (n + 2)) TreeRest := by
  have hroom := h.room
  rcases addNode_cases x s with ⟨_, hr⟩ | ⟨_, hr⟩ <;> rw [hr]
  · exact { h.rest with }
  · have hindex : s.arena.length < 512 := by omega
    refine ⟨{ h.rest with }, ?_, fits_of_lt hindex, h.res, fun e he => ?_⟩
    · simp only [heapInsert_length, List.length_append, List.length_singleton]
      omega
    · rcases List.mem_cons.1 ((heapInsert_perm _ _ _).mem_iff.1 he) with rfl | he
      · exact hindex
      · exact h.small e he

theorem addLeaf_building {n : Nat} {s : State} (x : Byte × Word) (h : Building n s)
    (hn : n < 512) : (addLeaf x s).Ends (Building (n + 2)) TreeRest := by
  unfold addLeaf
  split
  · exact { h with room := h.room.trans (by omega) }
  · exact addNode_building _ h hn

theorem mergeOnce_building {s : State} (h : Building 512 s) :
    (mergeOnce s).Ends (Building 512) TreeRest :=
  ends_bind (pqExtractMin_building _ h) fun _ h1 =>
    ends_bind (pqExtractMin_building _ h1) fun _ h2 => addNode_building _ h2 (by decide)

theorem pqExtractMin_size (q : QueueParams) (s : State) :
    (pqExtractMin q s).Ends (fun t => t.heap.length + 1 = s.heap.length) fun _ => True := by
  rcases pqExtractMin_cases q s with ⟨_, hr⟩ | ⟨r, l, hl, hr⟩ <;> rw [hr]
  · trivial
  · simp [hl]

theorem addNode_size (x : Node) (s : State) :
    (addNode x s).Ends (fun t => t.heap.length = s.heap.length + 1 ∧
      t.arena.length = s.arena.length + 1) fun _ => True := by
  rcases addNode_cases x s with ⟨_, hr⟩ | ⟨_, hr⟩ <;> rw [hr]
  · trivial
  · simp

/-- While the leaves are added every queued element has its own record (41_tree_builder.md R123). -/
theorem addLeaf_size (x : Byte × Word) {s : State} (h : s.heap.length ≤ s.arena.length) :
    (addLeaf x s).Ends (fun t => t.heap.length ≤ t.arena.length) fun _ => True := by
  unfold addLeaf
  split
  · exact h
  · exact ends_mono (addNode_size _ s) (fun _ ht => by omega) fun _ hu => hu

/-- A completed merge lowers SIZE by one (41_tree_builder.md R126). -/
theorem mergeOnce_size (s : State) :
    (mergeOnce s).Ends (fun t => t.heap.length + 1 = s.heap.length) fun _ => True :=
  ends_bind (pqExtractMin_size _ s) fun s1 h1 =>
    ends_bind (pqExtractMin_size _ s1) fun s2 h2 =>
      ends_mono (addNode_size _ s2) (fun _ ⟨h3, _⟩ => by omega) fun _ h => h

/-- The merges go on until at most one element is queued. -/
theorem mergeLoop_building (n : Nat) {s : State} (h : Building 512 s) (hn : s.heap.length ≤ n + 1) :
    (mergeLoop n s).Ends (fun t => Building 512 t ∧ t.heap.length ≤ 1) TreeRest := by
  induction n generalizing s with
  | zero => exact ⟨h, hn⟩
  | succ n ih =>
    rw [mergeLoop]
    split
    · refine ends_bind (ends_mono (ends_and (mergeOnce_building h) (mergeOnce_size s))
        (fun _ ht => ht) fun _ hu => hu.1) fun t ⟨ht, hsize⟩ => ih ht (by omega)
    · exact ⟨h, by omega⟩

/-- With the queue empty again everything is within its width. -/
theorem Building.widthsOk {n : Nat} {s : State} (h : Building n s) (hheap : s.heap = [])
    (hnodes : s.arena.length ≤ 511) : WidthsOk s :=
  widthsOk_of_tree h.rest (by simp [hheap]) hnodes h.argv h.res (by simp [hheap])

/-- The last extraction empties the queue; the element it takes had a slot, so at most 511 of the
512 are records. -/
theorem takeRoot_widthsOk {s : State} (h : Building 512 s) (hs : s.heap.length ≤ 1) :
    (takeRoot s).Ends WidthsOk TreeRest := by
  have room : (pqExtractMin Config.treeQueue s).Ends (Building 511) TreeRest :=
    pqExtractMin_building _ h
  refine ends_bind (ends_mono (ends_and room (pqExtractMin_size _ s)) (fun _ ht => ht)
    fun _ hu => hu.1) fun t ⟨ht, hsize⟩ => ?_
  have hnodes : t.arena.length ≤ 511 := (Nat.le_add_right _ _).trans ht.room
  have hheap : t.heap = [] := List.eq_nil_of_length_eq_zero (by omega)
  exact { ht.widthsOk hheap hnodes with }

theorem tbBuild_widthsOk {s : State} (h : WidthsOk s) : (tbBuild s).Ends WidthsOk TreeRest := by
  have start : Building 0 { s with arena := [], heap := [] } :=
    ⟨{ h.treeRest with }, le_rfl, h.argv, h.res, by simp⟩
  have leaves : (forEach addLeaf (entries s.freq) { s with arena := [], heap := [] }).Ends
      (fun t => Building 512 t ∧ t.heap.length ≤ t.arena.length) TreeRest := by
    have counted := ends_forEach (R := TreeRest) (body := addLeaf)
      (P := fun k t => Building (2 * k) t ∧ t.heap.length ≤ t.arena.length)
      (entries s.freq) 0 _ ⟨start, le_rfl⟩ fun x _ j hj t ht => by
        rw [entries_length] at hj
        exact ends_mono (ends_and (addLeaf_building x ht.1 (show 2 * j < 512 by omega))
          (addLeaf_size x ht.2)) (fun _ hu => hu) fun _ hu => hu.1
    rwa [entries_length] at counted
  refine ends_bind leaves fun s1 ⟨h1, hsize⟩ => ?_
  split
  next hempty =>
    have hheap : s1.heap = [] := List.eq_nil_of_length_eq_zero (by omega)
    exact { h1.widthsOk hheap (by omega) with }
  next =>
    exact ends_bind (mergeLoop_building _ h1 (Nat.le_succ _)) fun t ht =>
      takeRoot_widthsOk ht.1 ht.2

end Sys2Proof.Machine

namespace Sys2Proof.Machine

/-! ### CG.GEN and CG.INVERT -/

theorem codesFit_constTable_nil : CodesFit (constTable []) := fun b => by simp

theorem codesFit_tableSet {code : Table Bits} (h : CodesFit code) (b : Byte) {c : Bits}
    (hc : c.length ≤ 255) : CodesFit (tableSet code b c) := by
  intro b'
  rw [tableGet_tableSet]
  split
  · exact hc
  · exact h b'

/-- A path and the depth still allowed together never exceed 256 (42_code_generator.md R138). -/
theorem label_codesFit (arena : List Node) (n : Nat) (k : NodeIdx) (path : Bits)
    (code code' : Table Bits) (h : CodesFit code) (hpath : path.length + n ≤ 256)
    (hl : label arena n k path code = some code') : CodesFit code' := by
  induction n generalizing k path code code' with
  | zero => cases hl
  | succ n ih =>
    rw [label] at hl
    split at hl
    · cases hl
    · cases hl
      exact codesFit_tableSet h _ (by omega)
    · split at hl
      · cases hl
      next mid hmid =>
        have hleft : CodesFit mid := ih _ _ _ _ h (by simp; omega) hmid
        exact ih _ _ _ _ hleft (by simp; omega) hl

theorem codesOf_codesFit {arena : List Node} {root : Option NodeIdx} {code : Table Bits}
    (h : codesOf arena root = some code) : CodesFit code := by
  unfold codesOf at h
  split at h
  · cases h
    exact codesFit_constTable_nil
  · split at h
    · cases h
      exact codesFit_tableSet codesFit_constTable_nil _ (by simp)
    · exact label_codesFit _ _ _ _ _ _ codesFit_constTable_nil (by simp) h

theorem cgGen_widthsOk {s : State} (h : WidthsOk s) : (cgGen s).Holds WidthsOk := by
  unfold cgGen
  split
  next code hc => exact { h with codes := codesOf_codesFit hc }
  next => exact { h.spoilCode with }

/-- Stage `k` of the inversion: at most `k` entries, each as long as a code. -/
def Inverting (k : Nat) (s : State) : Prop :=
  RevRest s ∧ s.rev.length ≤ k ∧ ∀ e ∈ s.rev, e.bits.length ≤ 255

theorem invertEntry_inverting {k : Nat} {s : State} {x : Byte × Bits} (hx : x.2.length ≤ 255)
    (h : Inverting k s) : (invertEntry x s).Ends (Inverting (k + 1)) RevRest := by
  obtain ⟨hrest, hlen, hbits⟩ := h
  unfold invertEntry
  split
  · exact ⟨hrest, by omega, hbits⟩
  · split
    · exact hrest
    · refine ⟨{ hrest with }, by simpa using hlen, fun e he => ?_⟩
      rcases List.mem_append.1 he with he | he
      · exact hbits e he
      · rw [List.mem_singleton.1 he]
        exact hx

theorem cgInvert_widthsOk {s : State} (h : WidthsOk s) :
    (cgInvert s).Ends (fun t => RevRest t ∧ RevFits t.rev) RevRest := by
  have start : Inverting 0 { s with rev := [] } := ⟨{ h.revRest with }, le_rfl, by simp⟩
  have counted := ends_forEach (R := RevRest) (entries s.code) 0 _ start fun x hx j _ t ht =>
    invertEntry_inverting (by rw [(mem_entries s.code x).1 hx]; exact h.codes x.1) ht
  rw [entries_length] at counted
  exact ends_mono counted (fun _ ht => ht) fun _ hu => hu

/-! ### The BitPacker -/

/-- The bit count is at most `n`, everything within its width. -/
def BitsAtMost (n : Nat) (s : State) : Prop := WidthsOk s ∧ s.bitpos ≤ n

theorem inputText_length_lt (s : State) : s.inputText.length < 2 ^ 32 := by
  have := s.ilen.isLt
  simp only [State.inputText, State.ibufBytes, readBytes_length]
  omega

theorem addLength_bits {j : Nat} {s : State} (b : Byte) (hj : j < 2 ^ 32)
    (h : BitsAtMost (255 * j) s) :
    (addLength b s).Ends (BitsAtMost (255 * (j + 1))) WidthsOk := by
  obtain ⟨hw, hbit⟩ := h
  have hcode := hw.codes b
  unfold addLength
  split
  · exact hw
  · exact ⟨{ hw with bitpos := show s.bitpos + (tableGet s.code b).length < 2 ^ 40 by omega },
      show s.bitpos + (tableGet s.code b).length ≤ 255 * (j + 1) by omega⟩

theorem putCode_bits {j : Nat} {s : State} (b : Byte) (hj : j < 2 ^ 32)
    (h : BitsAtMost (255 * j) s) :
    (putCode b s).Ends (BitsAtMost (255 * (j + 1))) WidthsOk := by
  have hcode := h.1.codes b
  have counted := ends_forEach (body := putBit) (P := BitsAtMost) (R := WidthsOk)
    (tableGet s.code b) (255 * j) s h fun v _ i hi t ht =>
      ⟨{ ht.1 with bitpos := show t.bitpos + 1 < 2 ^ 40 by have := ht.2; omega },
        Nat.succ_le_succ ht.2⟩
  exact ends_mono counted (fun t ht => ⟨ht.1, ht.2.trans (by omega)⟩) fun _ hu => hu

/-- Both passes add up at most 255 bits for each of fewer than 2^32 bytes, which 40 bits hold. -/
theorem bpEncode_widthsOk {s : State} (h : WidthsOk s) : (bpEncode s).Holds WidthsOk := by
  have start : BitsAtMost (255 * 0) (startEncode s) :=
    ⟨{ h with bitpos := Nat.two_pow_pos 40 }, le_rfl⟩
  have first := ends_forEach (P := fun k => BitsAtMost (255 * k)) (R := WidthsOk) s.inputText 0 _
    start fun b _ j hj t => addLength_bits b (by have := inputText_length_lt s; omega)
  refine ends_self.1 (ends_bind first fun s1 h1 => ?_)
  have restart : BitsAtMost (255 * 0) (startPayload s1) :=
    ⟨{ h1.1 with bitpos := Nat.two_pow_pos 40 }, le_rfl⟩
  split
  · trivial
  · split
    · exact h1.1
    · have second := ends_forEach (P := fun k => BitsAtMost (255 * k)) (R := WidthsOk)
        s1.inputText 0 _ restart fun b _ j hj t =>
          putCode_bits b (by have := inputText_length_lt s1; omega)
      exact ends_mono second (fun _ ht => ht.1) fun _ hu => hu

/-- Stage `k` of the decoder: ACC and BITPOS have grown by at most one bit in every iteration. -/
structure Decoding (k : Nat) (s : State) : Prop where
  widths : WidthsOk s
  acc : s.acc.length ≤ k
  bits : s.bitpos ≤ k

theorem emit_widthsOk (bs : List Byte) {s : State} (h : WidthsOk s) :
    (emit bs s).Holds WidthsOk := by
  rcases emit_cases bs s with ⟨_, hr⟩ | ⟨hfit, hr⟩ <;> rw [hr]
  · exact h
  · have hcap := s.params.obufCap.isLt
    exact { h with wpos := show s.wpos + bs.length < 2 ^ 33 by omega }

theorem decodeBit_decoding (d : Nat) {k : Nat} {s : State} (hk : k < Config.maxBitCount)
    (h : Decoding k s) : (decodeBit d s).Ends (Decoding (k + 1)) WidthsOk := by
  obtain ⟨hw, hacc, hbits⟩ := h
  have hmax : Config.maxBitCount < 2 ^ 40 := by decide
  have grown : (s.acc ++ [payloadBit d s s.bitpos]).length ≤ k + 1 := by
    simpa using hacc
  have hw' : WidthsOk { s with acc := s.acc ++ [payloadBit d s s.bitpos] } :=
    { hw with acc := grown.trans hk }
  have counted : s.bitpos + 1 < 2 ^ 40 := by omega
  unfold decodeBit
  dsimp only
  split
  next => exact ⟨{ hw' with bitpos := counted }, grown, Nat.succ_le_succ hbits⟩
  next sym _ =>
    have hcap := s.params.obufCap.isLt
    rcases emit_cases [sym] { s with acc := s.acc ++ [payloadBit d s s.bitpos] } with
      ⟨_, hr⟩ | ⟨hfit, hr⟩ <;> rw [hr]
    · exact hw'
    · exact ⟨{ hw' with
        acc := Nat.zero_le _
        bitpos := counted
        wpos := show s.wpos + [sym].length < 2 ^ 33 by
          have hfit : s.wpos + [sym].length ≤ s.params.obufCap.toNat := hfit
          omega }, Nat.zero_le _, Nat.succ_le_succ hbits⟩

/-- There are VBC iterations, fewer than 2^32. -/
theorem bpDecode_widthsOk {s : State} (h : WidthsOk s) : (bpDecode s).Holds WidthsOk := by
  have start : Decoding 0 (startDecode s) :=
    ⟨{ h with
        acc := Nat.zero_le _
        wpos := Nat.two_pow_pos 33
        bitpos := Nat.two_pow_pos 40 }, le_rfl, le_rfl⟩
  have hvbc : s.vbc.toNat ≤ Config.maxBitCount := Nat.le_of_lt_succ s.vbc.isLt
  have walked := ends_decodeLoop (P := Decoding) (R := WidthsOk) s.fresh s.vbc.toNat 0 _ start
    fun j hj t => decodeBit_decoding s.fresh (by omega)
  refine ends_self.1 (ends_bind walked fun t ht => ?_)
  split
  · exact ht.widths
  · exact ht.widths

/-! ### The container -/

theorem cfWrite_widthsOk {s : State} (h : WidthsOk s) : (cfWrite s).Holds WidthsOk :=
  holds_forEach _ { s with wpos := 0 } { h with wpos := Nat.two_pow_pos 33 }
    fun bs _ _ ht => emit_widthsOk bs ht

/-- What CF.READ's table holds at all times: no symbol twice, and codes of at most 255 bits
(44_container.md R171, R173). -/
structure Reading (s : State) : Prop where
  rest : RevRest s
  nodup : (s.rev.map RevEntry.sym).Nodup
  bits : ∀ e ∈ s.rev, e.bits.length ≤ 255

/-- There are 256 symbols, so no more entries than that. -/
theorem Reading.revFits {s : State} (h : Reading s) : RevFits s.rev := by
  have hsub := List.subperm_of_subset h.nodup fun b _ => mem_symbols b
  exact ⟨by simpa using hsub.length_le, h.bits⟩

/-- Need moves RPOS no further than ILEN, a 32-bit word. -/
theorem Reading.moveRpos {s : State} (h : Reading s) {n : Nat} (hn : s.rpos + n ≤ s.ilen.toNat) :
    Reading { s with rpos := s.rpos + n } := by
  have hilen := s.ilen.isLt
  exact ⟨{ h.rest with rpos := show s.rpos + n < 2 ^ 33 by omega }, h.nodup, h.bits⟩

theorem revHasSym_iff (rev : List RevEntry) (b : Byte) :
    revHasSym rev b = true ↔ b ∈ rev.map RevEntry.sym := by
  simp [revHasSym]

theorem storeEntry_reading {sym : Byte} {chars : List Byte} {s : State} (h : Reading s)
    (hc : chars.length ≤ 255) : (storeEntry sym chars s).Holds Reading := by
  unfold storeEntry
  split
  · exact h
  · split
    · exact h
    next hnew =>
      split
      · exact h
      · refine ⟨{ h.rest with }, ?_, fun e he => ?_⟩
        · have hsym : sym ∉ s.rev.map RevEntry.sym := fun hmem => hnew ((revHasSym_iff _ _).2 hmem)
          simpa only [List.map_append, List.map_singleton, List.concat_eq_append]
            using h.nodup.concat hsym
        · rcases List.mem_append.1 he with he | he
          · exact h.bits e he
          · rw [List.mem_singleton.1 he]
            simpa [codeOfChars] using hc

theorem needByte_reading {s : State} {k : Byte → State → Res} (h : Reading s)
    (hk : ∀ b t, Reading t → (k b t).Holds Reading) : (needByte s k).Holds Reading :=
  holds_need h (fun h0 => absurd h0 (by decide)) fun hn => hk _ _ (h.moveRpos hn)

theorem readEntry_reading {s : State} (h : Reading s) : (readEntry s).Holds Reading := by
  refine needByte_reading h fun sym s1 h1 => needByte_reading h1 fun len s2 h2 => ?_
  split
  · exact h2
  · refine holds_need h2 (fun _ => storeEntry_reading h2 (by simp)) fun hn =>
      storeEntry_reading (h2.moveRpos hn) ?_
    have := len.isLt
    simp only [State.ibufBytes, readBytes_length]
    omega

theorem readPayload_reading {s : State} (h : Reading s) : (readPayload s).Holds Reading := by
  refine holds_need h (fun h0 => absurd h0 (by decide)) fun hn => ?_
  have h1 := h.moveRpos hn
  refine holds_need ⟨{ h1.rest with }, h1.nodup, h1.bits⟩
    (fun _ => ⟨{ h1.rest with }, h1.nodup, h1.bits⟩) fun hn' => ?_
  have h2 := h1.moveRpos hn'
  exact ⟨{ h2.rest with }, h2.nodup, h2.bits⟩

theorem readBody_reading {s : State} (h : Reading s) : (readBody s).Holds Reading :=
  holds_bind_same (holds_readEntries _ s h fun _ => readEntry_reading) fun _ => readPayload_reading

/-- Step 1 of CF.READ empties REV. -/
theorem readHeader_reading {s : State} (h : WidthsOk s) :
    (readHeader s).Holds fun t => Reading t ∧ t.rev = [] := by
  have start : Reading { s with rpos := 0, rev := [] } :=
    ⟨{ h.revRest with rpos := Nat.two_pow_pos 33 }, List.nodup_nil, by simp⟩
  exact holds_need ⟨start, rfl⟩ (fun h0 => absurd h0 (by decide)) fun hn =>
    ⟨start.moveRpos hn, rfl⟩

theorem cfRead_reading {s : State} (h : WidthsOk s) : (cfRead s).Holds Reading :=
  holds_bind (readHeader_reading h) (fun _ ht => ht.1) fun _ ht => readBody_reading ht.1

/-! ### The component operations run stand-alone -/

theorem widthsOk_unitOutcome {R : State → Prop} {spoil : State → State} {r : Res} {t : State}
    (hr : r.Ends WidthsOk R) (h : unitOutcome spoil r = .next t)
    (hspoil : ∀ u, R u → WidthsOk (spoil u)) : WidthsOk t :=
  unitOutcome_keeps hr (fun _ hu => { hu with }) (fun _ u hu => { hspoil u hu with }) h

/-- An operation that keeps the frame, run in an idle machine, ends outside HeaderParsed. -/
theorem ends_idle {D R : State → Prop} {s : State} {r : Res} (hp : s.phase = .idle)
    (hk : r.Holds (Keeps s)) (hr : r.Ends D R) :
    r.Ends (fun t => D t ∧ t.phase ≠ .headerParsed) fun t => R t ∧ t.phase ≠ .headerParsed := by
  have hphase : ∀ t, Keeps s t → t.phase ≠ .headerParsed := fun t ht he =>
    absurd (hp.symm.trans (ht.phase.symm.trans he)) (by decide)
  exact ends_and hr (ends_of_holds hk hphase hphase)

theorem cgInvert_widthsOk_idle {s : State} (h : WidthsOk s) (hp : s.phase = .idle) :
    (cgInvert s).Ends WidthsOk fun t => RevRest t ∧ t.phase ≠ .headerParsed :=
  ends_mono (ends_idle hp (cgInvert_keeps s) (cgInvert_widthsOk h))
    (fun _ ⟨ht, hne⟩ => ht.1.widthsOk ht.2 fun he => absurd he hne) fun _ hu => hu

theorem cfRead_widthsOk_idle {s : State} (h : WidthsOk s) (hp : s.phase = .idle) :
    (cfRead s).Ends WidthsOk fun t => RevRest t ∧ t.phase ≠ .headerParsed :=
  ends_mono (ends_idle hp (cfRead_keeps s) (ends_self.2 (cfRead_reading h)))
    (fun _ ⟨ht, hne⟩ => ht.rest.widthsOk ht.revFits fun he => absurd he hne)
    fun _ ⟨hu, hne⟩ => ⟨hu.rest, hne⟩

theorem widthsOk_component {i : Instr} {s t : State} (hi : isComponent i = true)
    (h : WidthsOk s) (hp : s.phase = .idle) (he : exec i s = .next t) : WidthsOk t := by
  cases i with
  | compress => cases hi
  | decompress => cases hi
  | pqInsert =>
    exact widthsOk_unitOutcome (ends_self.2 (pqInsert_widthsOk h)) he fun _ hu => hu
  | pqExtractMin =>
    exact widthsOk_unitOutcome (ends_self.2 (pqExtractMin_widthsOk h)) he fun _ hu => hu
  | pqBuild =>
    exact widthsOk_unitOutcome (ends_self.2 (pqBuild_widthsOk h)) he fun _ hu => hu
  | pqDecreaseKey =>
    exact widthsOk_unitOutcome (ends_self.2 (pqDecreaseKey_widthsOk h)) he fun _ hu => hu
  | fcCount =>
    exact widthsOk_unitOutcome (ends_self.2 (fcCount_widthsOk h)) he fun _ hu => { hu with }
  | tbBuild =>
    exact widthsOk_unitOutcome (tbBuild_widthsOk h) he fun _ hu => { hu.spoilTree with }
  | cgGen =>
    exact widthsOk_unitOutcome (ends_self.2 (cgGen_widthsOk h)) he fun _ hu =>
      { hu.spoilCode with }
  | cgInvert =>
    exact widthsOk_unitOutcome (cgInvert_widthsOk_idle h hp) he fun _ ⟨hu, hne⟩ =>
      { hu.spoilRev hne with }
  | bpEncode =>
    exact widthsOk_unitOutcome (ends_self.2 (bpEncode_widthsOk h)) he fun _ hu => { hu with }
  | bpDecode =>
    exact widthsOk_unitOutcome (ends_self.2 (bpDecode_widthsOk h)) he fun _ hu =>
      { hu.spoilWpos.spoilAcc with }
  | cfWrite =>
    exact widthsOk_unitOutcome (ends_self.2 (cfWrite_widthsOk h)) he fun _ hu =>
      { hu.spoilWpos with }
  | cfRead =>
    exact widthsOk_unitOutcome (cfRead_widthsOk_idle h hp) he fun _ ⟨hu, hne⟩ =>
      { hu.spoilRev hne with }

/-! ### Command issue and the parts of a running command -/

theorem widthsOk_issue (c : Byte) {s : State} (h : WidthsOk s) :
    (issue c s).Ends WidthsOk Abortable := by
  rcases issue_cases c s with ⟨_, hi⟩ | ⟨_, _, _, hi⟩ | ⟨_, _, _, hi⟩ <;> rw [hi]
  · exact ⟨h.items, fun _ => { h with }⟩
  · exact ⟨h.items, fun _ => { h with }⟩
  · exact { h with }

theorem widthsOk_thenPhase {p : Phase} {R : State → Prop} {r : Res} (hp : p ≠ .headerParsed)
    (hr : r.Ends WidthsOk R) : (thenPhase p r).Ends WidthsOk fun _ => True :=
  ends_thenPhase (ends_mono hr (fun _ ht => ht.setPhase hp) fun _ _ => trivial)

theorem widthsOk_codePart {s : State} (h : WidthsOk s) :
    (codePart s).Ends WidthsOk fun _ => True := by
  refine ends_thenPhase (ends_bind (ends_top_of_holds (cgGen_widthsOk h) fun _ ht => ht)
    fun t ht => ends_mono (cgInvert_widthsOk ht) (fun u ⟨hrest, hfits⟩ => ?_) fun _ _ => trivial)
  exact hrest.setPhase hfits fun he => absurd he (by decide)

theorem widthsOk_writePart {s : State} (h : WidthsOk s) :
    (writePart s).Ends WidthsOk fun _ => True := by
  refine widthsOk_thenPhase (R := fun _ => True) (by decide) ?_
  exact ends_bind (ends_top_of_holds (cfWrite_widthsOk h) fun _ ht => ht)
    fun _ ht => { ht with }

theorem widthsOk_headerPart {s : State} (h : WidthsOk s) :
    (headerPart s).Ends WidthsOk fun _ => True :=
  ends_thenPhase (ends_top_of_holds (readHeader_reading h) fun _ ⟨ht, hempty⟩ =>
    ht.rest.setPhase ht.revFits fun _ => hempty)

/-- CF.READ's second part starts from the empty REV that its first part left. -/
theorem widthsOk_tablePart {s : State} (h : WidthsOk s) (hp : s.phase = .headerParsed) :
    (tablePart s).Ends WidthsOk fun _ => True := by
  have start : Reading s := ⟨h.revRest, by simp [h.header hp], h.revBits⟩
  exact ends_thenPhase (ends_top_of_holds (readBody_reading start) fun _ ht =>
    ht.rest.setPhase ht.revFits fun he => absurd he (by decide))

theorem widthsOk_enginePart {s : State} (h : WidthsOk s) (hb : s.busy = true) :
    (enginePart s).Ends WidthsOk fun _ => True :=
  enginePart_ends hb
    (count := fun _ => widthsOk_thenPhase (by decide) (ends_self.2 (fcCount_widthsOk h)))
    (tree := fun _ => widthsOk_thenPhase (by decide) (tbBuild_widthsOk h))
    (code := fun _ => widthsOk_codePart h)
    (pack := fun _ => widthsOk_thenPhase (by decide) (ends_self.2 (bpEncode_widthsOk h)))
    (write := fun _ => widthsOk_writePart h)
    (header := fun _ => widthsOk_headerPart h)
    (table := fun hrun => widthsOk_tablePart h hrun.phase)
    (bits := fun _ => widthsOk_thenPhase (by decide) (ends_self.2 (bpDecode_widthsOk h)))
    (length := fun _ => { h with header := fun he => absurd he (by simp) })
    (finish := { h with header := fun he => absurd he (by simp) })

/-! ### The step -/

/-- The state a running command raises an error in: the working storage need not be within its
widths, for the abort sequence makes all of it free. -/
theorem abortable_of_keeps {s t : State} (h : WidthsOk s) (hb : s.busy = true) (hk : Keeps s t) :
    Abortable t where
  items := by rw [hk.pqItems, hk.params]; exact h.items
  stored := fun hf => absurd (hb.symm.trans (hk.busy.symm.trans hf)) (by decide)

/-- Both invariants together, for the width invariant needs the sequencer's: a stand-alone operation
finds the phase Idle. -/
theorem widthsOk_stepInvariant :
    StepInvariant (fun s => SequencerOk s ∧ WidthsOk s) Abortable where
  inputs := fun s l h => ⟨sequencerOk_stepInvariant.inputs s l h.1, { h.2 with }⟩
  reset := fun s _ => ⟨sequencerOk_reset s, widthsOk_reset s⟩
  access := fun _ _ h hb ha => ⟨h.1.access hb ha, h.2.access ha⟩
  idle := fun _ h hb => (h.1.idle hb).2
  issue := fun c _ h hb =>
    ends_mono (ends_and (sequencerOk_issue c h.1 hb) (widthsOk_issue c h.2))
      (fun _ ht => ht) fun _ hu => hu.2
  part := fun _ h hb =>
    ends_mono
      (ends_and (ends_and (sequencerOk_enginePart h.1 hb) (widthsOk_enginePart h.2 hb))
        (enginePart_raise_keeps hb))
      (fun _ ht => ht.1) fun _ hu => abortable_of_keeps h.2 hb hu.2
  abort := fun e u hu => ⟨sequencerOk_abort e u, widthsOk_abort e hu⟩
  component := fun _ _ _ hi h hb he =>
    ⟨sequencerOk_component hi h.1 hb he, widthsOk_component hi h.2 (h.1.idle hb).2 he⟩

/-- Settles O15: together with the sequencer's invariant the width invariant is kept by everything a
step is made of. -/
theorem widthsStayRespected : Obligations.WidthsStayRespected :=
  fun _ _ hs hw hstep => (widthsOk_stepInvariant.step ⟨hs, hw⟩ hstep).2

end Sys2Proof.Machine

namespace Sys2Proof.Machine

/-! ### What a step can do -/

/-- Everything that a step can do, once its input is off the list: nothing, the reset event, an
access while BUSY = 0, the issue of a command, a part of a running command, or an operation (log 9). -/
inductive StepDoes (s : State) : State → Prop where
  | nothing : StepDoes s s
  | reset : StepDoes s s.applyReset
  | access {t : State} (hb : s.busy = false) (h : HostAccess s t) : StepDoes s t
  | issue {t : State} (c : Byte) (hb : s.busy = false) (h : commandOutcome (issue c s) = .next t) :
      StepDoes s t
  | part {t : State} (hb : s.busy = true) (h : commandOutcome (enginePart s) = .next t) :
      StepDoes s t
  | operation {t : State} (i : Instr) (hb : s.busy = false) (h : exec i s = .next t) : StepDoes s t

theorem engineTurn_does {s t : State} (h : engineTurn s = .next t) : StepDoes s t := by
  rcases engineTurn_next h with ⟨_, rfl⟩ | ⟨hb, h⟩
  · exact .nothing
  · exact .part hb (commandOutcome_next.2 h)

/-- An access that is made only while BUSY = 0, by what it does then. -/
theorem whileIdle_does {s t : State} {o : Host.Outcome State Fault Refusal}
    (ho : o = .next t → HostAccess s t) (h : whileIdle s o = .next t) : StepDoes s t := by
  obtain ⟨hb, h⟩ := whileIdle_next h
  exact .access hb (ho h)

/-- What an input does, to the state or, where a poll stays, to the state with the poll in front of
its inputs again. -/
theorem applyInput_does {x : Input} {s t : State} (h : applyInput x s = .next t) :
    ∃ l, StepDoes { s with inputs := l } t := by
  cases x with
  | poll =>
    rw [applyInput] at h
    split at h
    · exact ⟨.poll :: s.inputs, engineTurn_does h⟩
    · cases h
      exact ⟨s.inputs, .nothing⟩
  | reset =>
    cases h
    exact ⟨s.inputs, .reset⟩
  | writeCmd c =>
    refine ⟨s.inputs, ?_⟩
    rw [applyInput, writeCmd] at h
    split at h
    · cases h
      exact .nothing
    · exact .issue c (by simp_all) h
  | engine => exact ⟨s.inputs, engineTurn_does h⟩
  | operate c =>
    obtain ⟨hb, h⟩ := whileIdle_next h
    obtain ⟨i, _, h⟩ := operate_next h
    exact ⟨s.inputs, .operation i hb h⟩
  | writeIlen n => exact ⟨s.inputs, whileIdle_does (fun h => by cases h; exact .ilen n) h⟩
  | writeIbuf a b => exact ⟨s.inputs, whileIdle_does writeIbuf_access h⟩
  | writeObuf a b => exact ⟨s.inputs, whileIdle_does writeObuf_access h⟩
  | setArgv v => exact ⟨s.inputs, whileIdle_does setArgv_access h⟩
  | setArgi i => exact ⟨s.inputs, whileIdle_does (fun h => by cases h; exact .argi i) h⟩
  | setItems l => exact ⟨s.inputs, whileIdle_does setItems_access h⟩

theorem step_does {s t : State} (h : step s = .next t) : ∃ l, StepDoes { s with inputs := l } t := by
  rcases step_next h with ⟨_, h⟩ | ⟨x, rest, _, h⟩
  · exact ⟨s.inputs, engineTurn_does h⟩
  · exact applyInput_does (s := { s with inputs := rest }) h

/-! ### Properties of the buffers that every write keeps -/

/-- A property of a buffer, given the addresses that the buffer has: an empty buffer has it, and a
write at one of these addresses keeps it. -/
structure BufferLaw (Q : (Nat → Prop) → Mem → Prop) : Prop where
  scrubbed : ∀ A n, Q A (Mem.scrubbed n)
  write : ∀ A m a b, A a → Q A m → Q A (m.write a b)

/-- Each of the three buffers has the property, with the addresses that it has (20_memory.md R50);
PAYLOAD has no capacity of its own (log 21). -/
def OnBuffers (Q : (Nat → Prop) → Mem → Prop) (s : State) : Prop :=
  Q (· < s.params.ibufCap.toNat) s.ibuf ∧ Q (· < s.params.obufCap.toNat) s.obuf ∧
    Q (fun _ => True) s.payload

section BufferLaw

variable {Q : (Nat → Prop) → Mem → Prop} {s t : State}

theorem BufferLaw.writeBytes (law : BufferLaw Q) {A : Nat → Prop} (bs : List Byte) (m : Mem)
    (a : Nat) (hA : ∀ x, x < a + bs.length → A x) (h : Q A m) : Q A (m.writeBytes a bs) := by
  induction bs generalizing m a with
  | nil => exact h
  | cons b bs ih =>
    simp only [List.length_cons] at hA
    exact ih _ _ (fun x hx => hA x (by omega)) (law.write A m a b (hA a (by omega)) h)

/-! The operations that write no buffer -/

theorem pqInsert_onBuffers (q : QueueParams) (h : OnBuffers Q s) :
    (pqInsert q s).Holds (OnBuffers Q) := by
  rcases pqInsert_cases q s with ⟨_, hr⟩ | ⟨_, hr⟩ <;> rw [hr] <;> exact h

theorem pqExtractMin_onBuffers (q : QueueParams) (h : OnBuffers Q s) :
    (pqExtractMin q s).Holds (OnBuffers Q) := by
  rcases pqExtractMin_cases q s with ⟨_, hr⟩ | ⟨_, _, _, hr⟩ <;> rw [hr] <;> exact h

theorem pqBuild_onBuffers (q : QueueParams) (h : OnBuffers Q s) :
    (pqBuild q s).Holds (OnBuffers Q) := by
  rcases pqBuild_cases q s with ⟨_, hr⟩ | ⟨_, hr⟩ <;> rw [hr] <;> exact h

theorem pqDecreaseKey_onBuffers (q : QueueParams) (h : OnBuffers Q s) :
    (pqDecreaseKey q s).Holds (OnBuffers Q) := by
  rcases pqDecreaseKey_cases q s with ⟨_, hr⟩ | ⟨_, _, _, hr⟩ | ⟨_, _, _, hr⟩ <;> rw [hr] <;>
    exact h

theorem fcCount_onBuffers (h : OnBuffers Q s) : (fcCount s).Holds (OnBuffers Q) := by
  unfold fcCount
  split
  · trivial
  · exact h

theorem addNode_onBuffers (n : Node) (h : OnBuffers Q s) : (addNode n s).Holds (OnBuffers Q) := by
  rcases addNode_cases n s with ⟨_, hr⟩ | ⟨_, hr⟩ <;> rw [hr] <;> exact h

theorem addLeaf_onBuffers (x : Byte × Word) (h : OnBuffers Q s) :
    (addLeaf x s).Holds (OnBuffers Q) := by
  unfold addLeaf
  split
  · exact h
  · exact addNode_onBuffers _ h

theorem mergeOnce_onBuffers (h : OnBuffers Q s) : (mergeOnce s).Holds (OnBuffers Q) :=
  holds_bind_same (pqExtractMin_onBuffers _ h) fun _ h1 =>
    holds_bind_same (pqExtractMin_onBuffers _ h1) fun _ h2 => addNode_onBuffers _ h2

theorem takeRoot_onBuffers (h : OnBuffers Q s) : (takeRoot s).Holds (OnBuffers Q) :=
  holds_bind_same (pqExtractMin_onBuffers _ h) fun _ ht => ht

theorem tbBuild_onBuffers (h : OnBuffers Q s) : (tbBuild s).Holds (OnBuffers Q) := by
  refine holds_bind_same (holds_forEach _ _ h fun x _ _ => addLeaf_onBuffers x) fun s1 h1 => ?_
  split
  · exact h1
  · exact holds_bind_same (holds_mergeLoop _ s1 h1 fun _ => mergeOnce_onBuffers) fun _ =>
      takeRoot_onBuffers

theorem cgGen_onBuffers (h : OnBuffers Q s) : (cgGen s).Holds (OnBuffers Q) := by
  unfold cgGen
  split <;> exact h

theorem invertEntry_onBuffers (x : Byte × Bits) (h : OnBuffers Q s) :
    (invertEntry x s).Holds (OnBuffers Q) := by
  unfold invertEntry
  split
  · exact h
  · split <;> exact h

theorem cgInvert_onBuffers (h : OnBuffers Q s) : (cgInvert s).Holds (OnBuffers Q) :=
  holds_forEach _ { s with rev := [] } h fun x _ _ => invertEntry_onBuffers x

theorem addLength_onBuffers (b : Byte) (h : OnBuffers Q s) :
    (addLength b s).Holds (OnBuffers Q) := by
  unfold addLength
  split <;> exact h

theorem storeEntry_onBuffers (sym : Byte) (chars : List Byte) (h : OnBuffers Q s) :
    (storeEntry sym chars s).Holds (OnBuffers Q) := by
  unfold storeEntry
  split
  · exact h
  · split
    · exact h
    · split <;> exact h

/-- `Need` moves RPOS alone. -/
theorem need_onBuffers {n : Nat} {k : List Byte → State → Res} (h : OnBuffers Q s)
    (hk : ∀ bs t, OnBuffers Q t → (k bs t).Holds (OnBuffers Q)) :
    (need n s k).Holds (OnBuffers Q) :=
  holds_need h (fun _ => hk _ _ h) fun _ => hk _ _ h

theorem needByte_onBuffers {k : Byte → State → Res} (h : OnBuffers Q s)
    (hk : ∀ b t, OnBuffers Q t → (k b t).Holds (OnBuffers Q)) :
    (needByte s k).Holds (OnBuffers Q) := need_onBuffers h fun bs => hk (bs.headD 0#8)

theorem readEntry_onBuffers (h : OnBuffers Q s) : (readEntry s).Holds (OnBuffers Q) := by
  refine needByte_onBuffers h fun _ s1 h1 => needByte_onBuffers h1 fun _ s2 h2 => ?_
  split
  · exact h2
  · exact need_onBuffers h2 fun _ _ h3 => storeEntry_onBuffers _ _ h3

theorem readHeader_onBuffers (h : OnBuffers Q s) : (readHeader s).Holds (OnBuffers Q) :=
  need_onBuffers (s := { s with rpos := 0, rev := [] }) h fun _ _ ht => ht

/-! The operations that write OBUF or PAYLOAD -/

/-- `Emit` writes below OBUF_CAP or not at all (20_memory.md R69). -/
theorem emit_onBuffers (law : BufferLaw Q) (bs : List Byte) (h : OnBuffers Q s) :
    (emit bs s).Holds (OnBuffers Q) := by
  obtain ⟨hi, ho, hp⟩ := h
  rcases emit_cases bs s with ⟨_, hr⟩ | ⟨hfit, hr⟩ <;> rw [hr]
  · exact ⟨hi, ho, hp⟩
  · exact ⟨hi, law.writeBytes _ _ _ (fun x hx => lt_of_lt_of_le hx hfit) ho, hp⟩

theorem putBit_onBuffers (law : BufferLaw Q) (v : Bool) (h : OnBuffers Q s) :
    (putBit v s).Holds (OnBuffers Q) := by
  obtain ⟨hi, ho, hp⟩ := h
  exact ⟨hi, ho, law.write _ _ _ _ trivial hp⟩

theorem startPayload_onBuffers (law : BufferLaw Q) (h : OnBuffers Q s) :
    OnBuffers Q (startPayload s) := by
  obtain ⟨hi, ho, hp⟩ := h
  exact ⟨hi, ho, law.writeBytes _ _ _ (fun _ _ => trivial) hp⟩

theorem bpEncode_onBuffers (law : BufferLaw Q) (h : OnBuffers Q s) :
    (bpEncode s).Holds (OnBuffers Q) := by
  refine holds_bind_same (holds_forEach _ (startEncode s) h fun b _ _ => addLength_onBuffers b)
    fun s1 h1 => ?_
  split
  · trivial
  · split
    · exact h1
    · exact holds_forEach _ _ (startPayload_onBuffers law h1) fun b _ t ht =>
        holds_forEach (tableGet t.code b) t ht fun v _ _ => putBit_onBuffers law v

theorem decodeBit_onBuffers (law : BufferLaw Q) (d : Nat) (h : OnBuffers Q s) :
    (decodeBit d s).Holds (OnBuffers Q) := by
  unfold decodeBit
  dsimp only
  split
  · exact h
  · exact holds_bind_same (emit_onBuffers law (s := { s with acc := _ }) _ h) fun _ ht => ht

theorem bpDecode_onBuffers (law : BufferLaw Q) (h : OnBuffers Q s) :
    (bpDecode s).Holds (OnBuffers Q) := by
  refine holds_bind_same
    (holds_decodeLoop _ _ (startDecode s) h fun _ => decodeBit_onBuffers law _) fun t ht => ?_
  split <;> exact ht

theorem cfWrite_onBuffers (law : BufferLaw Q) (h : OnBuffers Q s) :
    (cfWrite s).Holds (OnBuffers Q) :=
  holds_forEach _ { s with wpos := 0 } h fun bs _ _ => emit_onBuffers law bs

theorem readPayload_onBuffers (law : BufferLaw Q) (h : OnBuffers Q s) :
    (readPayload s).Holds (OnBuffers Q) := by
  refine need_onBuffers h fun _ s1 h1 =>
    need_onBuffers (s := { s1 with vbc := _, plen := _ }) h1 fun _ s2 ⟨hi, ho, hp⟩ => ?_
  exact ⟨hi, ho, law.writeBytes _ _ _ (fun _ _ => trivial) hp⟩

theorem readBody_onBuffers (law : BufferLaw Q) (h : OnBuffers Q s) :
    (readBody s).Holds (OnBuffers Q) :=
  holds_bind_same (holds_readEntries _ s h fun _ => readEntry_onBuffers) fun _ =>
    readPayload_onBuffers law

theorem cfRead_onBuffers (law : BufferLaw Q) (h : OnBuffers Q s) :
    (cfRead s).Holds (OnBuffers Q) :=
  holds_bind_same (readHeader_onBuffers h) fun _ => readBody_onBuffers law

/-! The free values and the abort sequence -/

theorem spoilObuf_onBuffers (law : BufferLaw Q) (h : OnBuffers Q s) : OnBuffers Q s.spoilObuf := by
  obtain ⟨hi, _, hp⟩ := h
  exact ⟨hi, law.scrubbed _ _, hp⟩

theorem spoilPayload_onBuffers (law : BufferLaw Q) (h : OnBuffers Q s) :
    OnBuffers Q s.spoilPayload := by
  obtain ⟨hi, ho, _⟩ := h
  exact ⟨hi, ho, law.scrubbed _ _⟩

theorem reset_onBuffers (law : BufferLaw Q) (s : State) : OnBuffers Q s.applyReset :=
  ⟨law.scrubbed _ _, law.scrubbed _ _, law.scrubbed _ _⟩

theorem spoilStorage_onBuffers (law : BufferLaw Q) (h : OnBuffers Q s) :
    OnBuffers Q s.spoilStorage := by
  simpa [OnBuffers, State.spoilStorage] using spoilPayload_onBuffers law h

/-- OBUF is unspecified after every abort, and so is PAYLOAD where a command was running. -/
theorem abort_onBuffers (law : BufferLaw Q) (e : Err) (h : OnBuffers Q s) :
    OnBuffers Q (abort e s) := by
  have reported (u : State) (hu : OnBuffers Q u) :
      OnBuffers Q (u.spoilObuf.reportError e).nextDraw :=
    spoilObuf_onBuffers (s := u) law hu
  unfold abort
  split
  · exact reported _ (spoilStorage_onBuffers law h)
  · exact reported s h

/-! The parts of a command, whole operations, a step -/

theorem thenPhase_onBuffers {p : Phase} {r : Res} (h : r.Holds (OnBuffers Q)) :
    (thenPhase p r).Holds (OnBuffers Q) := holds_bind_same h fun _ ht => ht

theorem countPart_onBuffers (h : OnBuffers Q s) : (countPart s).Holds (OnBuffers Q) :=
  thenPhase_onBuffers (fcCount_onBuffers h)

theorem treePart_onBuffers (h : OnBuffers Q s) : (treePart s).Holds (OnBuffers Q) :=
  thenPhase_onBuffers (tbBuild_onBuffers h)

theorem codePart_onBuffers (h : OnBuffers Q s) : (codePart s).Holds (OnBuffers Q) :=
  thenPhase_onBuffers (holds_bind_same (cgGen_onBuffers h) fun _ => cgInvert_onBuffers)

theorem packPart_onBuffers (law : BufferLaw Q) (h : OnBuffers Q s) :
    (packPart s).Holds (OnBuffers Q) := thenPhase_onBuffers (bpEncode_onBuffers law h)

theorem writePart_onBuffers (law : BufferLaw Q) (h : OnBuffers Q s) :
    (writePart s).Holds (OnBuffers Q) :=
  thenPhase_onBuffers (holds_bind_same (cfWrite_onBuffers law h) fun _ ht => ht)

theorem headerPart_onBuffers (h : OnBuffers Q s) : (headerPart s).Holds (OnBuffers Q) :=
  thenPhase_onBuffers (readHeader_onBuffers h)

theorem tablePart_onBuffers (law : BufferLaw Q) (h : OnBuffers Q s) :
    (tablePart s).Holds (OnBuffers Q) := thenPhase_onBuffers (readBody_onBuffers law h)

theorem bitsPart_onBuffers (law : BufferLaw Q) (h : OnBuffers Q s) :
    (bitsPart s).Holds (OnBuffers Q) := thenPhase_onBuffers (bpDecode_onBuffers law h)

theorem enginePart_onBuffers (law : BufferLaw Q) (hb : s.busy = true) (h : OnBuffers Q s) :
    (enginePart s).Holds (OnBuffers Q) :=
  ends_self.1 (enginePart_ends hb
    (count := fun _ => ends_self.2 (countPart_onBuffers h))
    (tree := fun _ => ends_self.2 (treePart_onBuffers h))
    (code := fun _ => ends_self.2 (codePart_onBuffers h))
    (pack := fun _ => ends_self.2 (packPart_onBuffers law h))
    (write := fun _ => ends_self.2 (writePart_onBuffers law h))
    (header := fun _ => ends_self.2 (headerPart_onBuffers h))
    (table := fun _ => ends_self.2 (tablePart_onBuffers law h))
    (bits := fun _ => ends_self.2 (bitsPart_onBuffers law h))
    (length := fun _ => h)
    (finish := h))

/-- The chain of COMPRESS from any state: a command executed as one step does not look at PHASE. -/
theorem compressChain_onBuffers (law : BufferLaw Q) (h : OnBuffers Q s) :
    (compressChain s).Holds (OnBuffers Q) := by
  have built := holds_bind_same (countPart_onBuffers h) fun _ => treePart_onBuffers
  have coded := holds_bind_same built fun _ => codePart_onBuffers
  have packed := holds_bind_same coded fun _ => packPart_onBuffers law
  have written := holds_bind_same packed fun _ => writePart_onBuffers law
  exact holds_bind_same written fun _ ht => ht

theorem decompressChain_onBuffers (law : BufferLaw Q) (h : OnBuffers Q s) :
    (decompressChain s).Holds (OnBuffers Q) := by
  have loaded := holds_bind_same (headerPart_onBuffers h) fun _ => tablePart_onBuffers law
  have walked := holds_bind_same loaded fun _ => bitsPart_onBuffers law
  have written := holds_bind_same (k := lengthPart) walked fun _ ht => ht
  exact holds_bind_same written fun _ ht => ht

theorem issue_onBuffers (c : Byte) (h : OnBuffers Q s) : (issue c s).Holds (OnBuffers Q) := by
  rcases issue_cases c s with ⟨_, hr⟩ | ⟨_, _, _, hr⟩ | ⟨_, _, _, hr⟩ <;> rw [hr] <;> exact h

theorem commandOutcome_onBuffers (law : BufferLaw Q) {r : Res} (hr : r.Holds (OnBuffers Q))
    (h : commandOutcome r = .next t) : OnBuffers Q t :=
  commandOutcome_keeps (ends_self.2 hr) (fun e _ hu => abort_onBuffers law e hu) h

theorem command_onBuffers (law : BufferLaw Q) {c : Byte} {chain : State → Res}
    (hchain : ∀ u, OnBuffers Q u → (chain u).Holds (OnBuffers Q)) (hs : OnBuffers Q s)
    (h : (if s.busy then .next s else commandOutcome ((issue c s).bind chain)) = .next t) :
    OnBuffers Q t := by
  split at h
  · cases h
    exact hs
  · exact commandOutcome_onBuffers law (holds_bind_same (issue_onBuffers c hs) hchain) h

theorem unitOutcome_onBuffers {spoil : State → State} {r : Res} (hr : r.Holds (OnBuffers Q))
    (h : unitOutcome spoil r = .next t) (hspoil : ∀ u, OnBuffers Q u → OnBuffers Q (spoil u)) :
    OnBuffers Q t :=
  unitOutcome_keeps (ends_self.2 hr) (fun _ hu => hu) (fun _ => hspoil) h

theorem exec_onBuffers (law : BufferLaw Q) {i : Instr} (h : OnBuffers Q s)
    (he : exec i s = .next t) : OnBuffers Q t := by
  cases i with
  | compress => exact command_onBuffers law (fun _ => compressChain_onBuffers law) h he
  | decompress => exact command_onBuffers law (fun _ => decompressChain_onBuffers law) h he
  | pqInsert => exact unitOutcome_onBuffers (pqInsert_onBuffers _ h) he fun _ hu => hu
  | pqExtractMin => exact unitOutcome_onBuffers (pqExtractMin_onBuffers _ h) he fun _ hu => hu
  | pqBuild => exact unitOutcome_onBuffers (pqBuild_onBuffers _ h) he fun _ hu => hu
  | pqDecreaseKey => exact unitOutcome_onBuffers (pqDecreaseKey_onBuffers _ h) he fun _ hu => hu
  | fcCount => exact unitOutcome_onBuffers (fcCount_onBuffers h) he fun _ hu => hu
  | tbBuild => exact unitOutcome_onBuffers (tbBuild_onBuffers h) he fun _ hu => hu
  | cgGen => exact unitOutcome_onBuffers (cgGen_onBuffers h) he fun _ hu => hu
  | cgInvert => exact unitOutcome_onBuffers (cgInvert_onBuffers h) he fun _ hu => hu
  | bpEncode =>
    exact unitOutcome_onBuffers (bpEncode_onBuffers law h) he fun _ => spoilPayload_onBuffers law
  | bpDecode =>
    exact unitOutcome_onBuffers (bpDecode_onBuffers law h) he fun _ => spoilObuf_onBuffers law
  | cfWrite =>
    exact unitOutcome_onBuffers (cfWrite_onBuffers law h) he fun _ => spoilObuf_onBuffers law
  | cfRead =>
    exact unitOutcome_onBuffers (cfRead_onBuffers law h) he fun _ => spoilPayload_onBuffers law

/-- The host writes IBUF and OBUF at their own addresses only (20_memory.md R60). -/
theorem access_onBuffers (law : BufferLaw Q) (h : OnBuffers Q s) (ha : HostAccess s t) :
    OnBuffers Q t := by
  obtain ⟨hi, ho, hp⟩ := h
  cases ha with
  | ibuf a b hlt => exact ⟨law.write _ _ a b hlt hi, ho, hp⟩
  | obuf a b hlt => exact ⟨hi, law.write _ _ a b hlt ho, hp⟩
  | ilen n => exact ⟨hi, ho, hp⟩
  | argv v _ => exact ⟨hi, ho, hp⟩
  | argi i => exact ⟨hi, ho, hp⟩
  | items l _ => exact ⟨hi, ho, hp⟩

theorem stepDoes_onBuffers (law : BufferLaw Q) (h : OnBuffers Q s) (hd : StepDoes s t) :
    OnBuffers Q t := by
  cases hd with
  | nothing => exact h
  | reset => exact reset_onBuffers law s
  | access _ ha => exact access_onBuffers law h ha
  | issue c _ hn => exact commandOutcome_onBuffers law (issue_onBuffers c h) hn
  | part hb hn => exact commandOutcome_onBuffers law (enginePart_onBuffers law hb h) hn
  | operation i _ he => exact exec_onBuffers law h he

/-- Every step writes the buffers at addresses they have, or makes them unspecified. -/
theorem step_onBuffers (law : BufferLaw Q) (h : OnBuffers Q s) (hstep : step s = .next t) :
    OnBuffers Q t := by
  obtain ⟨l, hd⟩ := step_does hstep
  exact stepDoes_onBuffers (s := { s with inputs := l }) law h hd

end BufferLaw

/-- No byte is listed at an address that the buffer does not have. -/
def ListedWithin (A : Nat → Prop) (m : Mem) : Prop := ∀ c ∈ m.cells, A c.1

theorem bufferLaw_listedWithin : BufferLaw ListedWithin where
  scrubbed := fun _ _ _ hc => absurd hc List.not_mem_nil
  write := fun _ m a b ha h c hc => by
    rcases mem_write m a b c hc with rfl | hc
    · exact ha
    · exact h c hc

theorem bufferLaw_wf : BufferLaw fun _ m => m.wf where
  scrubbed := fun _ => scrubbed_wf
  write := fun _ m a b _ => write_wf m a b

/-- Settles O17: `Emit` and the host's writes test the capacity, and nothing else writes IBUF or
OBUF. -/
theorem buffersStayInBounds : Obligations.BuffersStayInBounds := by
  intro s t ⟨hi, ho⟩ hstep
  have hs : OnBuffers ListedWithin s := ⟨hi, ho, fun _ _ => trivial⟩
  obtain ⟨hi', ho', _⟩ := step_onBuffers bufferLaw_listedWithin hs hstep
  exact ⟨hi', ho'⟩

/-- Settles O16: every write keeps the addresses rising, and an unspecified buffer lists none. -/
theorem buffersStayCanonical : Obligations.BuffersStayCanonical :=
  fun _ _ h hstep => step_onBuffers bufferLaw_wf h hstep

end Sys2Proof.Machine

namespace Sys2Proof.Machine

/-! ### Little-endian numbers -/

theorem u32_four (b0 b1 b2 b3 : Byte) :
    u32 [b0, b1, b2, b3] =
      b0.toNat + 256 * b1.toNat + 65536 * b2.toNat + 16777216 * b3.toNat := by
  simp only [u32]
  omega

theorem u32_bytesU32 {v : Nat} (hv : v < 2 ^ 32) : u32 (bytesU32 v) = v := by
  rw [bytesU32, u32_four]
  simp only [BitVec.toNat_ofNat]
  omega

theorem bytesU32_u32 (b0 b1 b2 b3 : Byte) :
    bytesU32 (u32 [b0, b1, b2, b3]) = [b0, b1, b2, b3] := by
  have h0 := b0.isLt
  have h1 := b1.isLt
  have h2 := b2.isLt
  have digit {n : Nat} {b : Byte} (h : n % 2 ^ 8 = b.toNat) : BitVec.ofNat 8 n = b :=
    BitVec.eq_of_toNat_eq h
  rw [u32_four, bytesU32, digit (b := b0) (by omega), digit (b := b1) (by omega),
    digit (b := b2) (by omega), digit (b := b3) (by omega)]

/-- Settles O22: the four digits to base 256, both ways. -/
theorem u32AndBytesU32AreInverse : Obligations.U32AndBytesU32AreInverse :=
  ⟨fun _ hv => ⟨rfl, u32_bytesU32 hv⟩, fun b0 b1 b2 b3 =>
    ⟨u32_four b0 b1 b2 b3, bytesU32_u32 b0 b1 b2 b3⟩⟩

/-! ### Stream bits -/

theorem getLsbD_oneShiftLeft {k : Nat} (hk : k < 8) (j : Nat) :
    (1#8 <<< k).getLsbD j = decide (j = k) := by
  have hpow : (1#8 <<< k).getLsbD j = (decide (k < 8) && decide (k = j)) :=
    BitVec.getLsbD_twoPow k j
  simp [hpow, hk, eq_comm]

theorem byteBit_setByteBit (b : Byte) {k : Nat} (hk : k < 8) (v : Bool) (j : Nat) :
    byteBit (setByteBit b k v) j = if j = k then v else byteBit b j := by
  unfold byteBit
  cases v with
  | true =>
    have hset : setByteBit b k true = b ||| 1#8 <<< k := rfl
    rw [hset, BitVec.getLsbD_or, getLsbD_oneShiftLeft hk]
    by_cases hj : j = k <;> simp [hj]
  | false =>
    have hclear : setByteBit b k false = b &&& ~~~(1#8 <<< k) := rfl
    rw [hclear, BitVec.getLsbD_and, BitVec.getLsbD_not, getLsbD_oneShiftLeft hk]
    by_cases hj : j = k
    · simp [hj]
    · simpa [hj] using BitVec.lt_of_getLsbD (x := b)

/-- Within one byte, stream bits are equal exactly where their bit numbers are (20_memory.md R51,
R54); another byte is not written. -/
theorem bit_setBit (sp : Space) (m : Mem) (i : Nat) (v : Bool) (j : Nat) :
    (m.setBit sp i v).bit sp j = if j = i then v else m.bit sp j := by
  rw [Mem.bit, Mem.setBit, read_write]
  by_cases hbyte : j / 8 = i / 8
  · rw [if_pos hbyte, byteBit_setByteBit _ (by omega), Mem.bit, hbyte]
    have same : 7 - j % 8 = 7 - i % 8 ↔ j = i := by omega
    simp only [same]
  · have hne : j ≠ i := fun h => hbyte (by rw [h])
    rw [if_neg hbyte, if_neg hne, Mem.bit]

/-- Settles O23: the byte with stream bit `i` is rewritten with that bit alone set. -/
theorem setBitChangesExactlyOneStreamBit : Obligations.SetBitChangesExactlyOneStreamBit :=
  bit_setBit

/-! ### Need and Emit -/

/-- Settles O25: the two cases of `Emit`, with the laws of a run of bytes written. -/
theorem emitWritesOrRaisesOverflow : Obligations.EmitWritesOrRaisesOverflow := by
  intro bs s
  rcases emit_cases bs s with ⟨hlt, h⟩ | ⟨hle, h⟩
  · exact ⟨fun _ => h, fun hle => absurd hlt (by omega)⟩
  · exact ⟨fun hlt => absurd hlt (by omega), fun _ => ⟨_, h, rfl,
      fun k hk => read_writeBytes_inside .obuf bs s.obuf s.wpos k hk,
      fun a ha => read_writeBytes_outside .obuf bs s.obuf s.wpos a ha⟩⟩

theorem need_zero (s : State) (k : List Byte → State → Res) : need 0 s k = k [] s := rfl

/-- `Need(n)` where ILEN is legal and not passed: no byte it reads is beyond IBUF (20_memory.md
R60). -/
theorem need_of_legal (n : Nat) (s : State) (k : List Byte → State → Res)
    (hr : s.rpos ≤ s.ilen.toNat) (hl : s.ilen.toNat ≤ s.params.ibufCap.toNat) :
    need n s k =
      if s.rpos + n > s.ilen.toNat then .raise .format s
      else k (s.ibuf.readBytes .ibuf s.rpos n) { s with rpos := s.rpos + n } := by
  by_cases h0 : n = 0
  · subst h0
    rw [need_zero, if_neg (by omega)]
    rfl
  · unfold need
    rw [if_neg h0]
    by_cases hlt : s.ilen.toNat < s.rpos + n
    · rw [if_pos hlt, if_pos hlt]
    · rw [if_neg hlt, if_neg hlt, if_neg (by omega)]
      rfl

/-- Settles O24: below a legal ILEN the address test of `Need` never stops it. -/
theorem needReadsOrRaisesFormatError : Obligations.NeedReadsOrRaisesFormatError :=
  ⟨need_of_legal, need_zero⟩

/-! ### The accesses of host and driver -/

section WhileIdle

variable {s : State} {o : Host.Outcome State Fault Refusal}

theorem whileIdle_of_busy (hb : s.busy = true) : whileIdle s o = .refused .accessWhileBusy :=
  if_pos hb

theorem whileIdle_of_idle (hb : s.busy = false) : whileIdle s o = o :=
  if_neg (by simp [hb])

end WhileIdle

/-- Settles O9: a step takes the input in front, every access but a CMD write and a reset is a
`whileIdle`, and the host's views test BUSY and the capacity. -/
theorem otherAccessesWhileBusyAreRefused : Obligations.OtherAccessesWhileBusyAreRefused := by
  refine ⟨?busy, ?idle, fun s => ⟨rfl, rfl⟩, ?views⟩
  case busy =>
    intro s rest a b n v i l c hb
    have refused (o : Host.Outcome State Fault Refusal) :
        whileIdle { s with inputs := rest } o = .refused .accessWhileBusy := whileIdle_of_busy hb
    exact ⟨refused _, refused _, refused _, refused _, refused _, refused _, refused _⟩
  case idle =>
    intro s rest hb
    have taken (o : Host.Outcome State Fault Refusal) :
        whileIdle { s with inputs := rest } o = o := whileIdle_of_idle hb
    refine ⟨fun n => taken _, fun a b ha => ?ibuf, fun a b ha => ?noIbuf, fun a b ha => ?obuf,
      fun a b ha => ?noObuf, fun v => ?argv, fun i => taken _, fun l => taken _⟩
    case ibuf =>
      exact ⟨_, (taken _).trans (if_pos ha), rfl, read_write .ibuf s.ibuf a b⟩
    case noIbuf => exact (taken _).trans (if_neg (Nat.not_lt.2 ha))
    case obuf =>
      exact ⟨_, (taken _).trans (if_pos ha), rfl, read_write .obuf s.obuf a b⟩
    case noObuf => exact (taken _).trans (if_neg (Nat.not_lt.2 ha))
    case argv => exact (taken _).trans (by simp [ifElems])
  case views =>
    intro s hb
    have idle : ¬ s.busy = true := by simp [hb]
    refine ⟨if_neg idle, if_neg idle, if_neg idle, fun a ha => ?_, fun a ha => ?_, fun a => ?_⟩
    · rw [hostReadIbuf, if_neg idle, if_pos ha]
    · rw [hostReadObuf, if_neg idle, if_pos ha]
    · simp [obufValid, hb]

end Sys2Proof.Machine

namespace Sys2Proof

/-! ### The command codes -/

/-- A command code is its unit above its op (30_encoding.md R70). -/
theorem codeUnit_append_codeOp (c : Byte) : codeUnit c ++ codeOp c = c := by
  have joined := BitVec.extractLsb'_append_extractLsb'_eq_extractLsb' (x := c)
    (start₂ := 4) (start₁ := 0) (len₂ := 4) (len₁ := 4) rfl
  exact joined.trans BitVec.extractLsb'_eq_self

/-- The decoder reads the two fields of the operation it answers (30_encoding.md R71). -/
theorem decodeByte_fields {c : Byte} {i : Instr} (h : decodeByte c = .ok i) :
    codeUnit c = unitOf i ∧ codeOp c = opOf i := by
  unfold decodeByte at h
  split at h
  case h_15 => split at h <;> cases h
  all_goals
    cases h
    exact ⟨BitVec.eq_of_toNat_eq ‹_›, BitVec.eq_of_toNat_eq ‹_›⟩

theorem encodeByte_of_decodeByte {c : Byte} {i : Instr} (h : decodeByte c = .ok i) :
    encodeByte i = c := by
  obtain ⟨hunit, hop⟩ := decodeByte_fields h
  rw [encodeByte, ← hunit, ← hop, codeUnit_append_codeOp]

/-- Every instruction has its row of the codec (30_encoding.md R70, R71). -/
theorem codec_statement (i : Instr) : Laws.Codec.Statement i := by
  cases i with
  | compress => exact Laws.Codec.compress
  | decompress => exact Laws.Codec.decompress
  | pqInsert => exact Laws.Codec.pqInsert
  | pqExtractMin => exact Laws.Codec.pqExtractMin
  | pqBuild => exact Laws.Codec.pqBuild
  | pqDecreaseKey => exact Laws.Codec.pqDecreaseKey
  | fcCount => exact Laws.Codec.fcCount
  | tbBuild => exact Laws.Codec.tbBuild
  | cgGen => exact Laws.Codec.cgGen
  | cgInvert => exact Laws.Codec.cgInvert
  | bpEncode => exact Laws.Codec.bpEncode
  | bpDecode => exact Laws.Codec.bpDecode
  | cfWrite => exact Laws.Codec.cfWrite
  | cfRead => exact Laws.Codec.cfRead

theorem decode_encode_append (i : Instr) (rest : List Byte) :
    decode (encode i ++ rest) = .ok (i, rest) := by
  obtain ⟨_, _, _, _, hdecode⟩ := codec_statement i
  exact hdecode rest

/-- Settles O2: row by row from operation to code, and from code to operation because the two fields
of a code determine it. -/
theorem decodeAndEncodeAgree : Obligations.DecodeAndEncodeAgree :=
  ⟨fun i rest _ => decode_encode_append i rest, fun _ _ => encodeByte_of_decodeByte⟩

/-- Settles O1: the fourteen codes by evaluation; a byte that decodes is the code of its
operation. -/
theorem everyTableCodeSelectsItsOperation : Obligations.EveryTableCodeSelectsItsOperation := by
  refine ⟨rfl, rfl, rfl, rfl, rfl, rfl, rfl, rfl, rfl, rfl, rfl, rfl, rfl, rfl, fun c i h => ?_⟩
  rw [← encodeByte_of_decodeByte h]
  cases i <;> decide

end Sys2Proof

namespace Sys2Proof.Machine

theorem step_of_operate {s : State} {c : Byte} {rest : List Input}
    (hin : s.inputs = .operate c :: rest) :
    step s = whileIdle { s with inputs := rest } (operate c { s with inputs := rest }) := by
  rw [step, advance, hin]
  rfl

theorem operate_of_decode {c : Byte} {i : Instr} {rest : List Byte} {s : State}
    (h : decode [c] = .ok (i, rest)) : operate c s = exec i s := by
  rw [operate, h]

/-- Settles O4: the code in front is taken, and BUSY = 0 lets its operation run. -/
theorem stepRunsTheDecodedInstruction : Obligations.StepRunsTheDecodedInstruction := by
  intro s c rest i hb hin hdec _
  calc step s
    _ = whileIdle { s with inputs := rest } (operate c { s with inputs := rest }) :=
        step_of_operate hin
    _ = operate c { s with inputs := rest } := whileIdle_of_idle hb
    _ = exec i { s with inputs := rest } := operate_of_decode hdec

end Sys2Proof.Machine

namespace Sys2Proof.Machine

/-! ### Trees in ARENA: paths that end, and the labelling of a tree -/

theorem endsWithin_leaf {arena : List Node} {k : NodeIdx} {sym : Byte} {f : Word}
    (h : arena[k.toNat]? = some (.leaf sym f)) (n : Nat) : endsWithin arena (n + 1) k = true := by
  rw [endsWithin, h]

theorem endsWithin_internal {arena : List Node} {k l r : NodeIdx} {f : Word}
    (h : arena[k.toNat]? = some (.internal f l r)) (n : Nat) :
    endsWithin arena (n + 1) k = (endsWithin arena n l && endsWithin arena n r) := by
  rw [endsWithin, h]

/-- What a node whose paths end within `n + 1` records is. -/
theorem endsWithin_succ {arena : List Node} {n : Nat} {k : NodeIdx}
    (h : endsWithin arena (n + 1) k = true) :
    (∃ sym f, arena[k.toNat]? = some (.leaf sym f)) ∨
    ∃ f l r, arena[k.toNat]? = some (.internal f l r) ∧
      endsWithin arena n l = true ∧ endsWithin arena n r = true := by
  unfold endsWithin at h
  split at h
  next sym f hk => exact .inl ⟨sym, f, hk⟩
  next f l r hk =>
    rw [Bool.and_eq_true] at h
    exact .inr ⟨f, l, r, hk, h⟩
  next => cases h

theorem one_le_of_endsWithin {arena : List Node} {n : Nat} {k : NodeIdx}
    (h : endsWithin arena n k = true) : 1 ≤ n := by
  cases n with
  | zero => cases h
  | succ n => exact Nat.succ_pos n

/-- Paths that end go on ending in a longer ARENA and within a larger number of records. -/
theorem endsWithin_mono {arena : List Node} (more : List Node) {n m : Nat} {k : NodeIdx}
    (h : endsWithin arena n k = true) (hnm : n ≤ m) : endsWithin (arena ++ more) m k = true := by
  induction n generalizing m k with
  | zero => cases h
  | succ n ih =>
    obtain ⟨m, rfl⟩ : ∃ m', m = m' + 1 := ⟨m - 1, by omega⟩
    have kept {x : Node} (hx : arena[k.toNat]? = some x) : (arena ++ more)[k.toNat]? = some x := by
      rw [List.getElem?_append_left (List.getElem?_eq_some_iff.1 hx).1, hx]
    rcases endsWithin_succ h with ⟨sym, f, hk⟩ | ⟨f, l, r, hk, hl, hr⟩
    · exact endsWithin_leaf (kept hk) m
    · rw [endsWithin_internal (kept hk), ih hl (by omega), ih hr (by omega)]
      rfl

/-- Where every path ends, the labelling has a result (42_code_generator.md R136). -/
theorem exists_label_of_endsWithin {arena : List Node} {n : Nat} {k : NodeIdx}
    (h : endsWithin arena n k = true) (path : Bits) (code : Table Bits) :
    ∃ code', label arena n k path code = some code' := by
  induction n generalizing k path code with
  | zero => cases h
  | succ n ih =>
    rcases endsWithin_succ h with ⟨sym, f, hk⟩ | ⟨f, l, r, hk, hl, hr⟩
    · exact ⟨tableSet code sym path, by rw [label, hk]⟩
    · obtain ⟨left, hleft⟩ := ih hl (path ++ [false]) code
      obtain ⟨both, hboth⟩ := ih hr (path ++ [true]) left
      exact ⟨both, by rw [label, hk]; simp only [hleft, hboth]⟩

/-- ARENA holds a tree at ROOT that CG.GEN can label: every path from ROOT ends within 256 records
(41_tree_builder.md R131 (e); 42_code_generator.md R138). -/
def HoldsTree (s : State) : Prop := ∀ r, s.root = some r → endsWithin s.arena 256 r = true

theorem exists_codesOf {s : State} (h : HoldsTree s) :
    ∃ code, codesOf s.arena s.root = some code := by
  unfold codesOf
  split
  · exact ⟨_, rfl⟩
  next r hr =>
    split
    · exact ⟨_, rfl⟩
    · exact exists_label_of_endsWithin (h r hr) [] _

/-- CG.GEN on a tree writes CODE alone. -/
theorem cgGen_of_holdsTree {s : State} (h : HoldsTree s) :
    ∃ code, cgGen s = .done { s with code := code } := by
  obtain ⟨code, hcode⟩ := exists_codesOf h
  exact ⟨code, by rw [cgGen, hcode]⟩

/-! ### TB.BUILD's forest: as many records on a path as there are leaves -/

/-- The nodes of the list are roots of trees in ARENA whose depths, in records, add up to at most
`n`. A tree has no more records on a path than it has leaves, so `n` can count leaves. -/
def Grove (arena : List Node) : Nat → List Elem → Prop
  | _, [] => True
  | n, k :: l =>
    ∃ a b, a + b ≤ n ∧ endsWithin arena a (BitVec.ofNat 9 k) = true ∧ Grove arena b l

theorem Grove.perm {arena : List Node} {n : Nat} {l l' : List Elem} (hp : l.Perm l')
    (h : Grove arena n l) : Grove arena n l' := by
  induction hp generalizing n with
  | nil => exact h
  | cons k _ ih =>
    obtain ⟨a, b, hab, hk, hl⟩ := h
    exact ⟨a, b, hab, hk, ih hl⟩
  | swap x y l =>
    obtain ⟨a, b, hab, hy, c, d, hcd, hx, hl⟩ := h
    exact ⟨c, a + d, by omega, hx, a, d, le_rfl, hy, hl⟩
  | trans _ _ ih ih' => exact ih' (ih h)

theorem Grove.append {arena : List Node} (more : List Node) {n : Nat} {l : List Elem}
    (h : Grove arena n l) : Grove (arena ++ more) n l := by
  induction l generalizing n with
  | nil => trivial
  | cons k l ih =>
    obtain ⟨a, b, hab, hk, hl⟩ := h
    exact ⟨a, b, hab, endsWithin_mono more hk le_rfl, ih hl⟩

theorem Grove.mono {arena : List Node} {n m : Nat} {l : List Elem} (h : Grove arena n l)
    (hnm : n ≤ m) : Grove arena m l := by
  cases l with
  | nil => trivial
  | cons k l =>
    obtain ⟨a, b, hab, hk⟩ := h
    exact ⟨a, b, hab.trans hnm, hk⟩

/-- Every tree has a record. -/
theorem Grove.length_le {arena : List Node} {n : Nat} {l : List Elem} (h : Grove arena n l) :
    l.length ≤ n := by
  induction l generalizing n with
  | nil => exact Nat.zero_le n
  | cons k l ih =>
    obtain ⟨a, b, hab, hk, hl⟩ := h
    have := one_le_of_endsWithin hk
    have := ih hl
    rw [List.length_cons]
    omega

/-- TB.BUILD at work: NNODES and SIZE together at most `m`, the queue a grove of `n`. -/
structure Growing (m n : Nat) (s : State) : Prop where
  room : s.arena.length + s.heap.length ≤ m
  grove : Grove s.arena n s.heap

/-- An extraction takes one tree out of the grove (41_tree_builder.md R126). -/
theorem pqExtractMin_growing {m n : Nat} {s : State} (q : QueueParams) (h : Growing (m + 1) n s)
    (hne : s.heap ≠ []) :
    ∃ t, pqExtractMin q s = .done t ∧ t.arena = s.arena ∧ t.heap.length + 1 = s.heap.length ∧
      ∃ a b, a + b ≤ n ∧ endsWithin s.arena a (BitVec.ofNat 9 t.pqRes) = true ∧ Growing m b t := by
  rcases pqExtractMin_cases q s with ⟨hnil, _⟩ | ⟨r, l, hl, hr⟩
  · exact absurd hnil hne
  · obtain ⟨hroom, hgrove⟩ := h
    have hperm : (heapExtract (s.less q) s.heap).Perm l := by
      rw [hl]
      exact heapExtract_perm _ r l
    rw [hl] at hgrove
    obtain ⟨a, b, hab, hroot, hrest⟩ := hgrove
    rw [hl, List.length_cons] at hroom
    have hsize := hperm.length_eq
    refine ⟨_, hr, rfl, ?_, a, b, hab, hroot, ?_, hrest.perm hperm.symm⟩
    · rw [hl] at hsize
      simp only [hl, hsize, List.length_cons]
    · simp only [hsize]
      omega

/-- Adding the root of a new tree of at most `a` records on a path; the queue is not full, for a
grove has no more trees than records (41_tree_builder.md R123). -/
theorem addNode_growing {m n a : Nat} {s : State} (x : Node) (h : Growing m n s) (hn : n < 256)
    (hx : endsWithin (s.arena ++ [x]) a (BitVec.ofNat 9 s.arena.length) = true) :
    (addNode x s).Ends (fun t => Growing (m + 2) (a + n) t ∧ t.heap ≠ []) fun _ => False := by
  obtain ⟨hroom, hgrove⟩ := h
  rcases addNode_cases x s with ⟨hfull, _⟩ | ⟨_, hr⟩
  · have := hgrove.length_le
    omega
  · have hperm := heapInsert_perm (nodeLess (s.arena ++ [x])) s.heap s.arena.length
    rw [hr]
    refine ⟨⟨?_, ?_⟩, ?_⟩
    · simp only [heapInsert_length, List.length_append, List.length_singleton]
      omega
    · exact Grove.perm hperm.symm ⟨a, n, le_rfl, hx, hgrove.append [x]⟩
    · exact List.ne_nil_of_length_pos (by simp)

/-- The record that a node adds is the one its 9-bit index names. -/
theorem getElem?_append_index {arena : List Node} (x : Node) (h : arena.length < 512) :
    (arena ++ [x])[(BitVec.ofNat 9 arena.length).toNat]? = some x := by
  rw [BitVec.toNat_ofNat, Nat.mod_eq_of_lt (by omega)]
  simp

/-- A node above two trees: one record above the deeper one, which is no more than the two have
together. -/
theorem endsWithin_append_internal {arena : List Node} {a b : Nat} {l r : NodeIdx} (f : Word)
    (hl : endsWithin arena a l = true) (hr : endsWithin arena b r = true)
    (hlen : arena.length < 512) :
    endsWithin (arena ++ [.internal f l r]) (a + b) (BitVec.ofNat 9 arena.length) = true := by
  have ha := one_le_of_endsWithin hl
  have hb := one_le_of_endsWithin hr
  obtain ⟨c, hc⟩ : ∃ c, a + b = c + 1 := ⟨a + b - 1, by omega⟩
  rw [hc, endsWithin_internal (getElem?_append_index _ hlen), endsWithin_mono _ hl (by omega),
    endsWithin_mono _ hr (by omega)]
  rfl

/-- Stage `j` of TB.BUILD's first loop: at most one leaf from each symbol seen, each leaf queued
(41_tree_builder.md R123, R124). -/
structure Planting (j : Nat) (s : State) : Prop where
  growing : Growing (2 * j) j s
  queued : s.arena ≠ [] → s.heap ≠ []

theorem addLeaf_planting {j : Nat} {s : State} (x : Byte × Word) (hj : j < 256)
    (h : Planting j s) : (addLeaf x s).Ends (Planting (j + 1)) fun _ => False := by
  obtain ⟨⟨hroom, hgrove⟩, hqueued⟩ := h
  unfold addLeaf
  split
  · exact ⟨⟨by omega, hgrove.mono (Nat.le_succ j)⟩, hqueued⟩
  · have hleaf := endsWithin_leaf
      (getElem?_append_index (arena := s.arena) (.leaf x.1 x.2) (by omega)) 0
    refine ends_mono (addNode_growing _ ⟨hroom, hgrove⟩ hj hleaf) (fun t ht => ?_) fun _ hu => hu
    rw [Nat.zero_add, Nat.add_comm 1 j] at ht
    exact ⟨ht.1, fun _ => ht.2⟩

/-- Merges at work: at least one tree is queued, and all trees together have at most 256 leaves. -/
def Merging (s : State) : Prop := Growing 512 256 s ∧ s.heap ≠ []

/-- A merge takes two trees and adds the tree of both (41_tree_builder.md R126, R127). -/
theorem mergeOnce_merging {s : State} (h : Merging s) (hsize : 1 < s.heap.length) :
    (mergeOnce s).Ends Merging fun _ => False := by
  obtain ⟨hgrow, hne⟩ := h
  obtain ⟨s1, hs1, harena1, hlen1, a, n1, hn1, ha, h1⟩ :=
    pqExtractMin_growing Config.treeQueue hgrow hne
  obtain ⟨s2, hs2, harena2, hlen2, b, n2, hn2, hb, h2⟩ :=
    pqExtractMin_growing Config.treeQueue h1 (List.ne_nil_of_length_pos (by omega))
  have ha1 := one_le_of_endsWithin ha
  have hroom := hgrow.room
  rw [← harena1, ← harena2] at ha hroom
  rw [← harena2] at hb
  rw [mergeOnce, hs1, done_bind, hs2, done_bind]
  refine ends_mono (addNode_growing _ h2 (by omega)
    (endsWithin_append_internal _ ha hb (by omega))) (fun t ht => ?_) fun _ hu => hu
  obtain ⟨⟨hroom', hgrove⟩, hne'⟩ := ht
  exact ⟨⟨hroom', hgrove.mono (by omega)⟩, hne'⟩

theorem mergeLoop_merging (n : Nat) {s : State} (h : Merging s) :
    (mergeLoop n s).Ends Merging fun _ => False := by
  induction n generalizing s with
  | zero => exact h
  | succ n ih =>
    rw [mergeLoop]
    split
    next hsize => exact ends_bind (mergeOnce_merging h hsize) fun _ ht => ih ht
    next => exact h

theorem takeRoot_holdsTree {s : State} (h : Merging s) :
    (takeRoot s).Ends HoldsTree fun _ => False := by
  obtain ⟨hgrow, hne⟩ := h
  obtain ⟨t, ht, harena, _, a, b, hab, ha, _⟩ :=
    pqExtractMin_growing Config.treeQueue hgrow hne
  rw [takeRoot, ht, done_bind]
  intro r hr
  cases hr
  rw [← List.append_nil t.arena, harena]
  exact endsWithin_mono [] ha (by omega)

/-- TB.BUILD raises no error and leaves a tree (41_tree_builder.md R128 to R131). -/
theorem tbBuild_holdsTree (s : State) : (tbBuild s).Ends HoldsTree fun _ => False := by
  have start : Planting 0 { s with arena := [], heap := [] } :=
    ⟨⟨le_rfl, trivial⟩, fun hne => absurd rfl hne⟩
  have leaves : (forEach addLeaf (entries s.freq) { s with arena := [], heap := [] }).Ends
      (Planting 256) fun _ => False := by
    have counted := ends_forEach (P := Planting) (R := fun _ => False) (entries s.freq) 0 _ start
      fun x _ j hj _ => addLeaf_planting x (by rw [entries_length] at hj; omega)
    rwa [entries_length] at counted
  refine ends_bind leaves fun s1 h1 => ?_
  split
  · exact fun r hr => nomatch hr
  next hlen =>
    have merging : Merging s1 := ⟨h1.growing, h1.queued (List.ne_nil_of_length_pos (by omega))⟩
    exact ends_bind (mergeLoop_merging _ merging) fun _ => takeRoot_holdsTree

end Sys2Proof.Machine

namespace Sys2Proof.Machine

/-! ### Frames: what an operation leaves as it was -/

/-- The two states have the same `f`. With `f` the state without some of its fields this says that
nothing but these fields has changed. -/
def Agrees {α : Type} (f : State → α) (s t : State) : Prop := f t = f s

namespace Agrees

variable {α β : Type} {f : State → α} {s t u : State}

theorem refl (f : State → α) (s : State) : Agrees f s s := rfl

theorem trans (h : Agrees f s t) (h' : Agrees f t u) : Agrees f s u := Eq.trans h' h

/-- What is computed from `f` alone is the same too. -/
theorem map (h : Agrees f s t) (g : α → β) : Agrees (fun v => g (f v)) s t := congrArg g h

/-- The frame equation: `g` puts the missing fields back. -/
theorem restore (h : Agrees f s t) (g : α → State) (ht : g (f t) = t) : t = g (f s) := by
  rw [← h, ht]

end Agrees

section Rules

variable {α : Type} {f : State → α} {s : State}

theorem agrees_bind {r : Res} {k : State → Res} (hr : r.Holds (Agrees f s))
    (hk : ∀ t, (k t).Holds (Agrees f t)) : (r.bind k).Holds (Agrees f s) :=
  holds_bind_same hr fun t ht => holds_mono (hk t) fun _ => ht.trans

theorem agrees_forEach {β : Type} {body : β → State → Res}
    (h : ∀ x t, (body x t).Holds (Agrees f t)) (xs : List β) (s : State) :
    (forEach body xs s).Holds (Agrees f s) :=
  holds_forEach xs s (.refl f s) fun x _ t ht => holds_mono (h x t) fun _ => ht.trans

theorem agrees_need {n : Nat} {k : List Byte → State → Res}
    (hrpos : ∀ (t : State) p, f { t with rpos := p } = f t)
    (hk : ∀ bs t, (k bs t).Holds (Agrees f t)) : (need n s k).Holds (Agrees f s) :=
  holds_need (.refl f s) (fun _ => hk [] s) fun _ =>
    holds_mono (hk _ _) fun _ => Agrees.trans (hrpos s _)

end Rules

namespace State

/-- The state without what TB.BUILD writes (30_encoding.md R74). -/
def exceptTree (s : State) : State :=
  { s with arena := [], root := none, heap := [], pqArgv := 0, pqRes := 0 }

/-- The state without HEAP. -/
def exceptHeap (s : State) : State := { s with heap := [] }

/-- The state without what PQ.EXTRACTMIN writes. -/
def exceptExtracted (s : State) : State := { s with heap := [], pqRes := 0 }

/-- The state without FREQ. -/
def exceptFreq (s : State) : State := { s with freq := constTable 0#32 }

/-- The state without CODE and the draw counter. -/
def exceptCode (s : State) : State := { s with code := constTable [], fresh := 0 }

/-- The state without REV. -/
def exceptRev (s : State) : State := { s with rev := [] }

/-- The state without what BP.ENCODE writes. -/
def exceptPacked (s : State) : State :=
  { s with payload := Mem.scrubbed 0, plen := 0#32, vbc := 0#32, bitpos := 0, pkByte := 0#8,
           pkCnt := 0#3 }

/-- The state without what BP.DECODE's loop writes. -/
def exceptDecoded (s : State) : State :=
  { s with obuf := Mem.scrubbed 0, wpos := 0, acc := [], bitpos := 0 }

/-- The state without what CF.WRITE writes. -/
def exceptWritten (s : State) : State := { s with obuf := Mem.scrubbed 0, wpos := 0 }

/-- The state without what CF.READ writes before the payload. -/
def exceptEntries (s : State) : State := { s with rev := [], rpos := 0 }

/-- The state without what CF.READ writes. -/
def exceptRead (s : State) : State :=
  { s with rev := [], rpos := 0, vbc := 0#32, payload := Mem.scrubbed 0, plen := 0#32 }

end State

/-! The component operations -/

theorem pqInsert_exceptHeap (q : QueueParams) (s : State) :
    (pqInsert q s).Holds (Agrees State.exceptHeap s) := by
  rcases pqInsert_cases q s with ⟨_, h⟩ | ⟨_, h⟩ <;> rw [h] <;> exact rfl

theorem pqExtractMin_exceptExtracted (q : QueueParams) (s : State) :
    (pqExtractMin q s).Holds (Agrees State.exceptExtracted s) := by
  rcases pqExtractMin_cases q s with ⟨_, h⟩ | ⟨_, _, _, h⟩ <;> rw [h] <;> exact rfl

theorem pqBuild_exceptHeap (q : QueueParams) (s : State) :
    (pqBuild q s).Holds (Agrees State.exceptHeap s) := by
  rcases pqBuild_cases q s with ⟨_, h⟩ | ⟨_, h⟩ <;> rw [h] <;> exact rfl

theorem pqDecreaseKey_exceptHeap (q : QueueParams) (s : State) :
    (pqDecreaseKey q s).Holds (Agrees State.exceptHeap s) := by
  rcases pqDecreaseKey_cases q s with ⟨_, h⟩ | ⟨_, _, _, h⟩ | ⟨_, _, _, h⟩ <;> rw [h] <;>
    exact rfl

/-- FC.COUNT raises no error (41_tree_builder.md R120). -/
theorem fcCount_exceptFreq (s : State) :
    (fcCount s).Ends (Agrees State.exceptFreq s) fun _ => False := by
  unfold fcCount
  split
  · trivial
  · exact rfl

theorem pqExtractMin_exceptTree (q : QueueParams) (s : State) :
    (pqExtractMin q s).Holds (Agrees State.exceptTree s) :=
  holds_mono (pqExtractMin_exceptExtracted q s) fun _ h => h.map State.exceptTree

theorem addNode_exceptTree (n : Node) (s : State) :
    (addNode n s).Holds (Agrees State.exceptTree s) :=
  holds_mono (pqInsert_exceptHeap Config.treeQueue
    { s with arena := s.arena ++ [n], pqArgv := s.arena.length }) fun _ h =>
      h.map State.exceptTree

theorem addLeaf_exceptTree (x : Byte × Word) (s : State) :
    (addLeaf x s).Holds (Agrees State.exceptTree s) := by
  unfold addLeaf
  split
  · exact rfl
  · exact addNode_exceptTree _ s

theorem mergeOnce_exceptTree (s : State) : (mergeOnce s).Holds (Agrees State.exceptTree s) :=
  agrees_bind (pqExtractMin_exceptTree _ s) fun s1 =>
    agrees_bind (pqExtractMin_exceptTree _ s1) fun s2 => addNode_exceptTree _ s2

theorem takeRoot_exceptTree (s : State) : (takeRoot s).Holds (Agrees State.exceptTree s) :=
  agrees_bind (pqExtractMin_exceptTree _ s) fun _ => rfl

theorem tbBuild_exceptTree (s : State) : (tbBuild s).Holds (Agrees State.exceptTree s) := by
  refine agrees_bind (agrees_forEach addLeaf_exceptTree _ { s with arena := [], heap := [] })
    fun s1 => ?_
  split
  · exact rfl
  · exact agrees_bind (holds_mergeLoop _ s1 (.refl _ s1) fun t ht =>
      holds_mono (mergeOnce_exceptTree t) fun _ => ht.trans) takeRoot_exceptTree

/-- CG.GEN raises no error (42_code_generator.md R135). -/
theorem cgGen_exceptCode (s : State) :
    (cgGen s).Ends (Agrees State.exceptCode s) fun _ => False := by
  unfold cgGen
  split <;> exact rfl

theorem invertEntry_exceptRev (x : Byte × Bits) (s : State) :
    (invertEntry x s).Holds (Agrees State.exceptRev s) := by
  unfold invertEntry
  split
  · exact rfl
  · split <;> exact rfl

theorem cgInvert_exceptRev (s : State) : (cgInvert s).Holds (Agrees State.exceptRev s) :=
  agrees_forEach invertEntry_exceptRev _ { s with rev := [] }

theorem addLength_exceptPacked (b : Byte) (s : State) :
    (addLength b s).Holds (Agrees State.exceptPacked s) := by
  unfold addLength
  split <;> exact rfl

theorem putCode_exceptPacked (b : Byte) (s : State) :
    (putCode b s).Holds (Agrees State.exceptPacked s) :=
  agrees_forEach (f := State.exceptPacked) (body := putBit) (fun _ _ => rfl) _ s

theorem bpEncode_exceptPacked (s : State) : (bpEncode s).Holds (Agrees State.exceptPacked s) := by
  refine agrees_bind (agrees_forEach addLength_exceptPacked _ (startEncode s)) fun s1 => ?_
  split
  · trivial
  · split
    · exact rfl
    · exact agrees_forEach putCode_exceptPacked _ (startPayload s1)

theorem emit_exceptWritten (bs : List Byte) (s : State) :
    (emit bs s).Holds (Agrees State.exceptWritten s) := by
  rcases emit_cases bs s with ⟨_, h⟩ | ⟨_, h⟩ <;> rw [h] <;> exact rfl

theorem cfWrite_exceptWritten (s : State) : (cfWrite s).Holds (Agrees State.exceptWritten s) :=
  agrees_forEach emit_exceptWritten _ { s with wpos := 0 }

theorem decodeBit_exceptDecoded (d : Nat) (s : State) :
    (decodeBit d s).Holds (Agrees State.exceptDecoded s) := by
  unfold decodeBit
  dsimp only
  split
  · exact rfl
  · exact agrees_bind (holds_mono (emit_exceptWritten _ { s with acc := _ }) fun _ ht =>
      ht.map State.exceptDecoded) fun _ => rfl

/-- BP.DECODE may use up a draw where it starts, and leaves the rest of the frame alone. -/
theorem bpDecode_exceptDecoded (s : State) :
    (bpDecode s).Holds (Agrees State.exceptDecoded (startDecode s)) := by
  refine agrees_bind (s := startDecode s) (holds_decodeLoop _ _ _ (.refl _ _) fun t ht =>
    holds_mono (decodeBit_exceptDecoded _ t) fun _ => ht.trans) fun t => ?_
  split <;> exact rfl

theorem storeEntry_exceptEntries (sym : Byte) (chars : List Byte) (s : State) :
    (storeEntry sym chars s).Holds (Agrees State.exceptEntries s) := by
  unfold storeEntry
  split
  · exact rfl
  · split
    · exact rfl
    · split <;> exact rfl

theorem need_exceptEntries {n : Nat} {s : State} {k : List Byte → State → Res}
    (hk : ∀ bs t, (k bs t).Holds (Agrees State.exceptEntries t)) :
    (need n s k).Holds (Agrees State.exceptEntries s) := agrees_need (fun _ _ => rfl) hk

theorem needByte_exceptEntries {s : State} {k : Byte → State → Res}
    (hk : ∀ b t, (k b t).Holds (Agrees State.exceptEntries t)) :
    (needByte s k).Holds (Agrees State.exceptEntries s) :=
  need_exceptEntries fun bs => hk (bs.headD 0#8)

theorem readEntry_exceptEntries (s : State) :
    (readEntry s).Holds (Agrees State.exceptEntries s) := by
  refine needByte_exceptEntries fun _ s1 => needByte_exceptEntries fun _ s2 => ?_
  split
  · exact rfl
  · exact need_exceptEntries fun _ s3 => storeEntry_exceptEntries _ _ s3

theorem readEntries_exceptEntries (n : Nat) (s : State) :
    (readEntries n s).Holds (Agrees State.exceptEntries s) :=
  holds_readEntries n s (.refl _ s) fun t ht =>
    holds_mono (readEntry_exceptEntries t) fun _ => ht.trans

theorem readHeader_exceptEntries (s : State) :
    (readHeader s).Holds (Agrees State.exceptEntries s) :=
  need_exceptEntries (s := { s with rpos := 0, rev := [] }) fun _ _ => rfl

theorem readPayload_exceptRead (s : State) : (readPayload s).Holds (Agrees State.exceptRead s) :=
  agrees_need (fun _ _ => rfl) fun _ s1 =>
    agrees_need (s := { s1 with vbc := _, plen := _ }) (fun _ _ => rfl) fun _ _ => rfl

theorem readBody_exceptRead (s : State) : (readBody s).Holds (Agrees State.exceptRead s) :=
  agrees_bind (holds_mono (readEntries_exceptEntries _ s) fun _ ht => ht.map State.exceptRead)
    readPayload_exceptRead

theorem cfRead_exceptRead (s : State) : (cfRead s).Holds (Agrees State.exceptRead s) :=
  agrees_bind (holds_mono (readHeader_exceptEntries s) fun _ ht => ht.map State.exceptRead)
    readBody_exceptRead

end Sys2Proof.Machine

namespace Sys2Proof.Machine

/-! ### The bytes that a completed operation leaves -/

theorem emit_obufKept (bs : List Byte) {s t : State} (h : ObufKeptBeyond s t) :
    (emit bs t).Holds (ObufKeptBeyond s) := by
  rcases emit_cases bs t with ⟨_, hr⟩ | ⟨_, hr⟩ <;> rw [hr]
  · exact h
  · intro a (ha : t.wpos + bs.length ≤ a)
    exact (read_writeBytes_outside .obuf bs t.obuf t.wpos a (.inr ha)).trans (h a (by omega))

theorem cfWrite_obufKept (s : State) : (cfWrite s).Holds (ObufKeptBeyond s) :=
  holds_forEach _ { s with wpos := 0 } (fun _ _ => rfl) fun bs _ _ => emit_obufKept bs

theorem decodeBit_obufKept (d : Nat) {s t : State} (h : ObufKeptBeyond s t) :
    (decodeBit d t).Holds (ObufKeptBeyond s) := by
  unfold decodeBit
  dsimp only
  split
  · exact h
  · exact holds_bind_same (emit_obufKept (t := { t with acc := _ }) _ h) fun _ hu => hu

theorem bpDecode_obufKept (s : State) : (bpDecode s).Holds (ObufKeptBeyond s) := by
  refine holds_bind_same (holds_decodeLoop _ _ (startDecode s) (fun _ _ => rfl)
    fun _ => decodeBit_obufKept _) fun t ht => ?_
  split <;> exact ht

/-! The two passes of BP.ENCODE -/

theorem textBits_cons (code : Table Bits) (b : Byte) (text : List Byte) :
    textBits code (b :: text) = tableGet code b ++ textBits code text := rfl

/-- The first pass, where it finds a code for every byte, has counted the bits of the text
(43_bit_packer.md R151). -/
theorem forEach_addLength (text : List Byte) (s : State) :
    (forEach addLength text s).Ends
      (fun t => t = { s with bitpos := s.bitpos + (textBits s.code text).length })
      fun _ => True := by
  induction text generalizing s with
  | nil => rfl
  | cons b text ih =>
    have counted : (addLength b s).Ends
        (fun t => t = { s with bitpos := s.bitpos + (tableGet s.code b).length })
        fun _ => True := by
      unfold addLength
      split
      · trivial
      · rfl
    refine ends_bind counted fun t ht => ends_mono (ih t) (fun u hu => ?_) fun _ h => h
    rw [hu, ht, textBits_cons, List.length_append, Nat.add_assoc]

/-- `n` bits have been placed since the state `s`: CODE and PLEN are the same and no byte beyond
these bits is written. -/
structure Placed (s : State) (n : Nat) (t : State) : Prop where
  code : t.code = s.code
  plen : t.plen = s.plen
  bitpos : t.bitpos = s.bitpos + n
  kept : ∀ a, s.bitpos + n ≤ 8 * a → t.payload.read .payload a = s.payload.read .payload a

theorem Placed.refl (s : State) : Placed s 0 s := ⟨rfl, rfl, rfl, fun _ _ => rfl⟩

theorem putBit_placed {s t : State} {n : Nat} (v : Bool) (h : Placed s n t) :
    (putBit v t).Ends (Placed s (n + 1)) fun _ => False := by
  obtain ⟨hcode, hplen, hbit, hkept⟩ := h
  refine ⟨hcode, hplen, by rw [← Nat.add_assoc, ← hbit], fun a ha => ?_⟩
  have outside : (t.payload.setBit .payload t.bitpos v).read .payload a =
      t.payload.read .payload a := by
    rw [Mem.setBit, read_write, if_neg (by omega)]
  exact outside.trans (hkept a (by omega))

theorem putCode_placed {s t : State} {n : Nat} (b : Byte) (h : Placed s n t) :
    (putCode b t).Ends (Placed s (n + (tableGet s.code b).length)) fun _ => False := by
  rw [putCode, h.code]
  exact ends_forEach (tableGet s.code b) n t h fun v _ _ _ _ => putBit_placed v

/-- The second pass (43_bit_packer.md R150). -/
theorem forEach_putCode_placed (text : List Byte) {s t : State} {n : Nat} (h : Placed s n t) :
    (forEach putCode text t).Ends (Placed s (n + (textBits s.code text).length))
      fun _ => False := by
  induction text generalizing t n with
  | nil => exact h
  | cons b text ih =>
    refine ends_bind (putCode_placed b h) fun u hu => ?_
    rw [textBits_cons, List.length_append, ← Nat.add_assoc]
    exact ih hu

theorem ceilDiv8_le_iff (n a : Nat) : ceilDiv8 n ≤ a ↔ n ≤ 8 * a := by
  unfold ceilDiv8
  omega

theorem toNat_ceilDiv8 {n : Nat} (h : n < 2 ^ 32) :
    (BitVec.ofNat 32 (ceilDiv8 n)).toNat = ceilDiv8 n := by
  have : ceilDiv8 n < 2 ^ 32 := by
    unfold ceilDiv8
    omega
  rw [BitVec.toNat_ofNat, Nat.mod_eq_of_lt this]

/-- BP.ENCODE zeroes the bytes below PLEN and places the bits there (43_bit_packer.md R150;
20_memory.md R55). -/
theorem bpEncode_payloadKept (s : State) :
    (bpEncode s).Ends (PayloadKeptBeyond s) fun _ => True := by
  refine ends_bind (forEach_addLength s.inputText (startEncode s)) fun s1 hs1 => ?_
  have hbits : s1.bitpos = (textBits s.code s.inputText).length := by
    rw [hs1]
    exact Nat.zero_add _
  have hcode : (startPayload s1).code = s.code := by rw [hs1]; rfl
  have htext : s1.inputText = s.inputText := by rw [hs1]; rfl
  have hpayload : s1.payload = s.payload := by rw [hs1]; rfl
  split
  · trivial
  split
  · trivial
  next hmax =>
    have hfit : s1.bitpos < 2 ^ 32 := Nat.lt_succ_of_le (Nat.le_of_not_lt hmax)
    have packed := forEach_putCode_placed s1.inputText (Placed.refl (startPayload s1))
    rw [hcode, htext, ← hbits, Nat.zero_add] at packed
    rw [htext]
    refine ends_mono packed (fun t ht a ha => ?_) fun _ _ => trivial
    have hplen : t.plen.toNat = ceilDiv8 s1.bitpos := by
      rw [ht.plen]
      exact toNat_ceilDiv8 hfit
    rw [hplen] at ha
    have hzeroed : (startPayload s1).payload.read .payload a = s1.payload.read .payload a :=
      read_writeBytes_outside .payload _ s1.payload 0 a (.inr (by simpa using ha))
    have hbeyond : (startPayload s1).bitpos + s1.bitpos ≤ 8 * a := by
      rw [← ceilDiv8_le_iff]
      simpa [startPayload] using ha
    rw [ht.kept a hbeyond, hzeroed, hpayload]

/-! CF.READ's payload -/

theorem u32_lt (bs : List Byte) : u32 bs < 256 ^ bs.length := by
  induction bs with
  | nil => exact Nat.one_pos
  | cons b bs ih =>
    have := b.isLt
    rw [u32, List.length_cons, Nat.pow_succ]
    omega

/-- VBC counts bits of the payload's PLEN bytes (43_bit_packer.md R163). -/
def StreamFits (s : State) : Prop := s.vbc.toNat ≤ 8 * s.plen.toNat

/-- What holds where `Need(n)` and its continuation complete. -/
theorem ends_need {D : State → Prop} {n : Nat} {s : State} {k : List Byte → State → Res}
    (h0 : n = 0 → (k [] s).Ends D fun _ => True)
    (hk : (k (s.ibufBytes s.rpos n) { s with rpos := s.rpos + n }).Ends D fun _ => True) :
    (need n s k).Ends D fun _ => True := by
  rcases need_cases n s k with ⟨hn, h⟩ | ⟨_, h⟩ | ⟨_, h⟩ | ⟨_, _, h⟩ <;> rw [h]
  · exact h0 hn
  · trivial
  · trivial
  · exact hk

/-- CF.READ reads as many payload bytes as the bit count needs (44_container.md R174, R175). -/
theorem readPayload_payloadKept (s : State) :
    (readPayload s).Ends (fun t => PayloadKeptBeyond s t ∧ StreamFits t) fun _ => True := by
  refine ends_need (fun h => absurd h (by decide)) ?_
  have hlt : u32 (s.ibufBytes s.rpos 4) < 2 ^ 32 := by
    simpa [State.ibufBytes] using u32_lt (s.ibufBytes s.rpos 4)
  generalize u32 (s.ibufBytes s.rpos 4) = v at hlt
  have hplen := toNat_ceilDiv8 hlt
  have hvbc : (BitVec.ofNat 32 v).toNat = v := by rw [BitVec.toNat_ofNat, Nat.mod_eq_of_lt hlt]
  have fits : (BitVec.ofNat 32 v).toNat ≤ 8 * (BitVec.ofNat 32 (ceilDiv8 v)).toNat := by
    rw [hvbc, hplen, ← ceilDiv8_le_iff]
  have stored (p : List Byte) (hp : p.length = ceilDiv8 v) (t : State) (ht : t.payload = s.payload)
      (hl : t.plen = BitVec.ofNat 32 (ceilDiv8 v)) :
      PayloadKeptBeyond s { t with payload := t.payload.writeBytes 0 p } := by
    intro a (ha : t.plen.toNat ≤ a)
    rw [hl, hplen, ← hp] at ha
    rw [← ht]
    exact read_writeBytes_outside .payload p t.payload 0 a (.inr (by omega))
  refine ends_need (fun h0 => ⟨stored [] h0.symm _ rfl rfl, fits⟩) ⟨stored _ ?_ _ rfl rfl, fits⟩
  exact readBytes_length _ _ _ _

theorem PayloadKeptBeyond.of_payload {s s1 t : State} (h : PayloadKeptBeyond s1 t)
    (hp : s1.payload = s.payload) : PayloadKeptBeyond s t := fun a ha => by rw [h a ha, hp]

theorem PayloadKeptBeyond.to_same {s t u : State} (h : PayloadKeptBeyond s t)
    (hu : (u.payload, u.plen) = (t.payload, t.plen)) : PayloadKeptBeyond s u := by
  obtain ⟨hp, hl⟩ := Prod.mk.inj hu
  intro a ha
  rw [hl] at ha
  rw [hp, h a ha]

theorem ObufKeptBeyond.of_obuf {s s1 t : State} (h : ObufKeptBeyond s1 t)
    (ho : s1.obuf = s.obuf) : ObufKeptBeyond s t := fun a ha => by rw [h a ha, ho]

theorem readBody_payloadKept (s : State) :
    (readBody s).Ends (fun t => PayloadKeptBeyond s t ∧ StreamFits t) fun _ => True := by
  refine ends_bind (ends_top_of_holds (readEntries_exceptEntries _ s) fun _ h => h) fun s1 h1 => ?_
  have hpayload : s1.payload = s.payload := h1.map State.payload
  exact ends_mono (readPayload_payloadKept s1)
    (fun _ ⟨hkept, hfits⟩ => ⟨hkept.of_payload hpayload, hfits⟩) fun _ h => h

theorem cfRead_payloadKept (s : State) :
    (cfRead s).Ends (PayloadKeptBeyond s) fun _ => True := by
  refine ends_bind (ends_top_of_holds (readHeader_exceptEntries s) fun _ h => h) fun s1 h1 => ?_
  have hpayload : s1.payload = s.payload := h1.map State.payload
  exact ends_mono (readBody_payloadKept s1) (fun _ ⟨hkept, _⟩ => hkept.of_payload hpayload)
    fun _ h => h

end Sys2Proof.Machine

namespace Sys2Proof.Machine

/-! ### The component operations write only their outputs -/

namespace State

/-- The state without the result register (log 7). -/
def exceptResult (s : State) : State := { s with unitErr := none }

/-- The state without the result register and the draw counter (log 5, log 7). -/
def exceptResultAndDraw (s : State) : State := { s with unitErr := none, fresh := 0 }

end State

section Components

variable {s t : State}

/-- What a stand-alone operation leaves as it was, its result and perhaps the draw apart. -/
theorem standAlone_agrees {α β : Type} {f : State → α} (g : α → β) {spoil : State → State}
    {r : Res} (h : unitOutcome spoil r = .next t) (hr : r.Holds (Agrees f s))
    (hdone : ∀ u, g (f (u.setResult none)) = g (f u))
    (hfail : ∀ e u, g (f ((spoil u).setResult (some e))) = g (f u)) :
    Agrees (fun u => g (f u)) s t :=
  unitOutcome_keeps (ends_self.2 hr) (fun u hu => Agrees.trans (hu.map g) (hdone u))
    (fun e u hu => Agrees.trans (hu.map g) (hfail e u)) h

/-- A queue operation but PQ.EXTRACTMIN; where it fails it changes nothing (40_priority_queue.md
R109). -/
theorem unitOutcome_writes_heap {r : Res} (hr : r.Holds (Agrees State.exceptHeap s))
    (h : unitOutcome spoilNothing r = .next t) :
    t = { s with heap := t.heap, unitErr := t.unitErr } := by
  have kept : Agrees (fun u => u.exceptHeap.exceptResult) s t :=
    standAlone_agrees State.exceptResult h hr
      (fun _ => rfl) fun _ _ => rfl
  exact kept.restore (fun u => { u with heap := t.heap, unitErr := t.unitErr }) rfl

theorem execPqExtractMin_writes (h : execPqExtractMin s = .next t) :
    WritesOnlyItsOutputs .pqExtractMin s t := by
  have kept : Agrees (fun u => u.exceptExtracted.exceptResult) s t :=
    standAlone_agrees State.exceptResult h (pqExtractMin_exceptExtracted _ s)
      (fun _ => rfl) fun _ _ => rfl
  exact kept.restore (fun u =>
    { u with heap := t.heap, pqRes := t.pqRes, unitErr := t.unitErr }) rfl

theorem execFcCount_writes (h : execFcCount s = .next t) :
    WritesOnlyItsOutputs .fcCount s t := by
  have kept : Agrees (fun u => u.exceptFreq.exceptResult) s t :=
    unitOutcome_keeps (fcCount_exceptFreq s) (fun _ hu => hu.map State.exceptResult)
      (fun _ _ hu => hu.elim) h
  exact kept.restore (fun u => { u with freq := t.freq, unitErr := t.unitErr }) rfl

theorem execTbBuild_writes (h : execTbBuild s = .next t) :
    WritesOnlyItsOutputs .tbBuild s t := by
  have kept : Agrees (fun u => u.exceptTree.exceptResult) s t :=
    unitOutcome_keeps (ends_and (ends_self.2 (tbBuild_exceptTree s)) (tbBuild_holdsTree s))
      (fun _ hu => hu.1.map State.exceptResult) (fun _ _ hu => hu.2.elim) h
  exact kept.restore (fun u =>
    { u with arena := t.arena, root := t.root, heap := t.heap, pqArgv := t.pqArgv,
             pqRes := t.pqRes, unitErr := t.unitErr }) rfl

theorem execCgGen_writes (h : execCgGen s = .next t) : WritesOnlyItsOutputs .cgGen s t := by
  have kept : Agrees (fun u => u.exceptCode.exceptResult) s t :=
    unitOutcome_keeps (cgGen_exceptCode s) (fun _ hu => hu.map State.exceptResult)
      (fun _ _ hu => hu.elim) h
  exact kept.restore (fun u =>
    { u with code := t.code, unitErr := t.unitErr, fresh := t.fresh }) rfl

theorem execCgInvert_writes (h : execCgInvert s = .next t) :
    WritesOnlyItsOutputs .cgInvert s t := by
  have kept : Agrees (fun u => u.exceptRev.exceptResultAndDraw) s t :=
    standAlone_agrees State.exceptResultAndDraw h (cgInvert_exceptRev s)
      (fun _ => rfl) fun _ _ => by simp [State.exceptRev, State.exceptResultAndDraw]
  exact kept.restore (fun u => { u with rev := t.rev, unitErr := t.unitErr, fresh := t.fresh }) rfl

/-- A property of the state that a stand-alone operation completes with. -/
theorem unitOutcome_completed {D : State → Prop} {spoil : State → State} {r : Res}
    (hr : r.Ends D fun _ => True) (hd : ∀ u, D u → D (u.setResult none))
    (h : unitOutcome spoil r = .next t) : t.unitErr = none → D t :=
  unitOutcome_keeps (P := fun u => u.unitErr = none → D u) hr (fun u hu _ => hd u hu)
    (fun _ _ _ he => nomatch he) h

theorem execBpEncode_writes (h : execBpEncode s = .next t) :
    WritesOnlyItsOutputs .bpEncode s t := by
  have kept : Agrees (fun u => u.exceptPacked.exceptResultAndDraw) s t :=
    standAlone_agrees State.exceptResultAndDraw h (bpEncode_exceptPacked s)
      (fun _ => rfl) fun _ _ => by simp [State.exceptPacked, State.exceptResultAndDraw]
  refine ⟨kept.restore (fun u =>
    { u with payload := t.payload, plen := t.plen, vbc := t.vbc, bitpos := t.bitpos,
             pkByte := t.pkByte, pkCnt := t.pkCnt, unitErr := t.unitErr,
             fresh := t.fresh }) rfl, ?_⟩
  exact unitOutcome_completed (bpEncode_payloadKept s) (fun _ hu => hu) h

theorem execBpDecode_writes (h : execBpDecode s = .next t) :
    WritesOnlyItsOutputs .bpDecode s t := by
  have start : Agrees (fun u => u.exceptDecoded.exceptResultAndDraw) s (startDecode s) := rfl
  have kept := start.trans <|
    standAlone_agrees State.exceptResultAndDraw h (bpDecode_exceptDecoded s)
      (fun _ => rfl) fun _ _ => by simp [State.exceptDecoded, State.exceptResultAndDraw]
  refine ⟨kept.restore (fun u =>
    { u with obuf := t.obuf, wpos := t.wpos, acc := t.acc, bitpos := t.bitpos,
             unitErr := t.unitErr, fresh := t.fresh }) rfl, ?_⟩
  exact unitOutcome_completed (ends_top_of_holds (bpDecode_obufKept s) fun _ hu => hu)
    (fun _ hu => hu) h

theorem execCfWrite_writes (h : execCfWrite s = .next t) :
    WritesOnlyItsOutputs .cfWrite s t := by
  have kept : Agrees (fun u => u.exceptWritten.exceptResultAndDraw) s t :=
    standAlone_agrees State.exceptResultAndDraw h (cfWrite_exceptWritten s)
      (fun _ => rfl) fun _ _ => by simp [State.exceptWritten, State.exceptResultAndDraw]
  refine ⟨kept.restore (fun u =>
    { u with obuf := t.obuf, wpos := t.wpos, unitErr := t.unitErr, fresh := t.fresh }) rfl, ?_⟩
  exact unitOutcome_completed (ends_top_of_holds (cfWrite_obufKept s) fun _ hu => hu)
    (fun _ hu => hu) h

theorem execCfRead_writes (h : execCfRead s = .next t) : WritesOnlyItsOutputs .cfRead s t := by
  have kept : Agrees (fun u => u.exceptRead.exceptResultAndDraw) s t :=
    standAlone_agrees State.exceptResultAndDraw h (cfRead_exceptRead s)
      (fun _ => rfl) fun _ _ => by simp [State.exceptRead, State.exceptResultAndDraw]
  refine ⟨kept.restore (fun u =>
    { u with rev := t.rev, vbc := t.vbc, payload := t.payload, plen := t.plen, rpos := t.rpos,
             unitErr := t.unitErr, fresh := t.fresh }) rfl, ?_⟩
  exact unitOutcome_completed (cfRead_payloadKept s) (fun _ hu => hu) h

end Components

/-! ### The commands write only what their chains write -/

namespace State

/-- What no command writes, whether it completes or fails, with everything else at its reset
value. -/
def beyondCommands (s : State) : State :=
  { State.resetWith s.params with
    ibuf := s.ibuf
    ilen := s.ilen
    pqItems := s.pqItems
    unitErr := s.unitErr
    inputs := s.inputs }

/-- The state without the host registers and the sequencer. -/
def exceptHost (s : State) : State :=
  { s with op := .idle, phase := .idle, busy := false, done := false, err := false,
           errinfo := 0#32, olen := 0#32 }

/-- The state without what a completed COMPRESS writes (30_encoding.md R91). -/
def exceptCompressed (s : State) : State :=
  { s.exceptHost.exceptTree.exceptRev.exceptPacked.exceptWritten with
    freq := constTable 0#32, code := constTable [] }

/-- The state without what a completed DECOMPRESS writes (30_encoding.md R92). -/
def exceptDecompressed (s : State) : State := s.exceptHost.exceptRead.exceptDecoded

end State

section Commands

/-- No buffer is written yet. -/
def Unwritten (e : State → State) (s t : State) : Prop :=
  Agrees (fun u => (e u, u.obuf, u.payload)) s t

/-- The payload is written, OBUF is not. -/
structure PayloadWritten (e : State → State) (s t : State) : Prop where
  rest : Agrees e s t
  obuf : t.obuf = s.obuf
  payload : PayloadKeptBeyond s t

/-- The frame of a command that has written its output. -/
structure OutputWritten (e : State → State) (s t : State) : Prop where
  rest : Agrees e s t
  obuf : ObufKeptBeyond s t
  payload : PayloadKeptBeyond s t

theorem abort_beyondCommands (x : Err) {s u : State} (h : Agrees State.beyondCommands s u) :
    Agrees State.beyondCommands s (abort x u) := by
  refine Agrees.trans h ?_
  unfold abort
  cases u.busy <;> simp [Agrees, State.beyondCommands, State.spoilStorage]

/-- A command: ignored while BUSY = 1, else its issue and its chain, which may be aborted. -/
theorem command_writes {e : State → State} {c : Byte} {chain : State → Res} {s t : State}
    (he : ∀ u, Agrees e s u → Agrees State.beyondCommands s u)
    (issued : (issue c s).Ends (Unwritten e s) (Agrees State.beyondCommands s))
    (hchain : ∀ u, Unwritten e s u →
      (chain u).Ends (OutputWritten e s) (Agrees State.beyondCommands s))
    (h : (if s.busy then .next s else commandOutcome ((issue c s).bind chain)) = .next t) :
    Agrees State.beyondCommands s t ∧ (t.err = false → OutputWritten e s t) := by
  split at h
  · cases h
    exact ⟨rfl, fun _ => ⟨rfl, fun _ _ => rfl, fun _ _ => rfl⟩⟩
  · exact commandOutcome_keeps
      (P := fun u => Agrees State.beyondCommands s u ∧ (u.err = false → OutputWritten e s u))
      (ends_mono (ends_bind issued hchain) (fun u hu => ⟨he u hu.rest, fun _ => hu⟩) fun _ hu => hu)
      (fun x u hu => ⟨abort_beyondCommands x hu, fun herr => absurd herr (by simp [abort])⟩) h

theorem beyondCommands_frame {s t : State} (h : Agrees State.beyondCommands s t) :
    t = { t with params := s.params, ibuf := s.ibuf, ilen := s.ilen, pqItems := s.pqItems,
                 unitErr := s.unitErr, inputs := s.inputs } :=
  h.restore (fun u => { t with params := u.params, ibuf := u.ibuf, ilen := u.ilen,
                               pqItems := u.pqItems, unitErr := u.unitErr, inputs := u.inputs }) rfl

/-! The chain of COMPRESS -/

theorem exceptCompressed_beyondCommands {s u : State} (h : Agrees State.exceptCompressed s u) :
    Agrees State.beyondCommands s u := h.map State.beyondCommands

theorem Unwritten.exceptCompressed {s t : State} (h : Unwritten State.exceptCompressed s t) :
    Agrees State.exceptCompressed s t := h.map Prod.fst

theorem countPart_unwritten {s t : State} (h : Unwritten State.exceptCompressed s t) :
    (countPart t).Ends (Unwritten State.exceptCompressed s) (Agrees State.beyondCommands s) := by
  refine ends_thenPhase (ends_mono (fcCount_exceptFreq t) (fun u hu => ?_) fun _ hu => hu.elim)
  exact h.trans (hu.map fun v => (v.exceptCompressed, v.obuf, v.payload))

theorem treePart_unwritten {s t : State} (h : Unwritten State.exceptCompressed s t) :
    (treePart t).Ends (fun u => Unwritten State.exceptCompressed s u ∧ HoldsTree u)
      (Agrees State.beyondCommands s) := by
  refine ends_thenPhase (ends_mono
    (ends_and (ends_self.2 (tbBuild_exceptTree t)) (tbBuild_holdsTree t))
    (fun u hu => ⟨?_, hu.2⟩) fun _ hu => hu.2.elim)
  exact h.trans (hu.1.map fun v => (v.exceptCompressed, v.obuf, v.payload))

/-- On the tree that TB.BUILD leaves, CG.GEN uses no free value. -/
theorem codePart_unwritten {s t : State} (h : Unwritten State.exceptCompressed s t)
    (ht : HoldsTree t) :
    (codePart t).Ends (Unwritten State.exceptCompressed s) (Agrees State.beyondCommands s) := by
  obtain ⟨code, hgen⟩ := cgGen_of_holdsTree ht
  have coded : Unwritten State.exceptCompressed s { t with code := code } := h
  have inverted (u : State) (hu : Agrees State.exceptRev { t with code := code } u) :
      Unwritten State.exceptCompressed s u :=
    coded.trans (hu.map fun v => (v.exceptCompressed, v.obuf, v.payload))
  rw [codePart, hgen, done_bind]
  exact ends_thenPhase (ends_of_holds (cgInvert_exceptRev _) inverted
    fun u hu => exceptCompressed_beyondCommands (inverted u hu).exceptCompressed)

theorem packPart_payloadWritten {s t : State} (h : Unwritten State.exceptCompressed s t) :
    (packPart t).Ends (PayloadWritten State.exceptCompressed s)
      (Agrees State.beyondCommands s) := by
  have packed (u : State) (hu : Agrees State.exceptPacked t u) :
      Agrees (fun v => (v.exceptCompressed, v.obuf)) s u :=
    (h.map fun p => (p.1, p.2.1)).trans (hu.map fun v => (v.exceptCompressed, v.obuf))
  refine ends_thenPhase (ends_mono (ends_and (ends_self.2 (bpEncode_exceptPacked t))
    (bpEncode_payloadKept t)) (fun u ⟨hrest, hkept⟩ => ?_)
    fun u hu => exceptCompressed_beyondCommands ((packed u hu.1).map Prod.fst))
  exact ⟨(packed u hrest).map Prod.fst, (packed u hrest).map Prod.snd,
    hkept.of_payload (h.map fun p => p.2.2)⟩

theorem writePart_outputWritten {s t : State} (h : PayloadWritten State.exceptCompressed s t) :
    (writePart t).Ends (OutputWritten State.exceptCompressed s)
      (Agrees State.beyondCommands s) := by
  obtain ⟨hrest, hobuf, hpayload⟩ := h
  have wrote (u : State) (hu : Agrees State.exceptWritten t u) :
      Agrees State.exceptCompressed s u := hrest.trans (hu.map State.exceptCompressed)
  refine ends_thenPhase (ends_bind (ends_of_holds
    (holds_and (cfWrite_exceptWritten t) (cfWrite_obufKept t)) (fun _ hu => hu)
    fun u hu => exceptCompressed_beyondCommands (wrote u hu.1)) fun u ⟨hu, hkept⟩ => ?_)
  exact ⟨wrote u hu, hkept.of_obuf hobuf,
    hpayload.to_same (hu.map fun v => (v.payload, v.plen))⟩

theorem compressChain_writes {s t : State} (h : Unwritten State.exceptCompressed s t) :
    (compressChain t).Ends (OutputWritten State.exceptCompressed s)
      (Agrees State.beyondCommands s) := by
  have built := ends_bind (countPart_unwritten h) fun _ => treePart_unwritten
  have coded := ends_bind built fun _ hu => codePart_unwritten hu.1 hu.2
  have packed := ends_bind coded fun _ => packPart_payloadWritten
  have written := ends_bind packed fun _ => writePart_outputWritten
  exact ends_bind written fun _ ⟨hrest, hobuf, hpayload⟩ => ⟨hrest, hobuf, hpayload⟩

theorem issue_unwritten (e : State → State) (c : Byte) (s : State)
    (he : ∀ o, e (s.clearReport.setOp o).setBusy = e s) :
    (issue c s).Ends (Unwritten e s) (Agrees State.beyondCommands s) := by
  rcases issue_cases c s with ⟨_, h⟩ | ⟨o, _, _, h⟩ | ⟨o, _, _, h⟩ <;> rw [h]
  · exact rfl
  · exact rfl
  · exact congrArg (fun v => (v, s.obuf, s.payload)) (he o)

theorem execCompress_writes {s t : State} (h : execCompress s = .next t) :
    WritesOnlyItsOutputs .compress s t := by
  obtain ⟨hbeyond, hdone⟩ := command_writes (fun _ => exceptCompressed_beyondCommands)
    (issue_unwritten State.exceptCompressed _ s fun _ => rfl) (fun _ => compressChain_writes) h
  refine ⟨beyondCommands_frame hbeyond, fun herr => ?_⟩
  obtain ⟨hrest, hobuf, hpayload⟩ := hdone herr
  exact ⟨hrest.restore (fun u => { u with
    op := t.op, phase := t.phase, busy := t.busy, done := t.done, err := t.err,
    errinfo := t.errinfo, olen := t.olen, obuf := t.obuf, wpos := t.wpos, freq := t.freq,
    arena := t.arena, root := t.root, heap := t.heap, pqArgv := t.pqArgv,
    pqRes := t.pqRes, code := t.code, rev := t.rev, payload := t.payload,
    plen := t.plen, vbc := t.vbc, bitpos := t.bitpos, pkByte := t.pkByte,
    pkCnt := t.pkCnt }) rfl, hobuf, hpayload⟩

/-! The chain of DECOMPRESS -/

theorem exceptDecompressed_beyondCommands {s u : State}
    (h : Agrees State.exceptDecompressed s u) : Agrees State.beyondCommands s u :=
  h.map State.beyondCommands

theorem headerPart_unwritten {s t : State} (h : Unwritten State.exceptDecompressed s t) :
    (headerPart t).Ends (Unwritten State.exceptDecompressed s)
      (Agrees State.beyondCommands s) := by
  have parsed (u : State) (hu : Agrees State.exceptEntries t u) :
      Unwritten State.exceptDecompressed s u :=
    h.trans (hu.map fun v => (v.exceptDecompressed, v.obuf, v.payload))
  exact ends_thenPhase (ends_of_holds (readHeader_exceptEntries t) parsed
    fun u hu => exceptDecompressed_beyondCommands ((parsed u hu).map Prod.fst))

theorem tablePart_payloadWritten {s t : State} (h : Unwritten State.exceptDecompressed s t) :
    (tablePart t).Ends (fun u => PayloadWritten State.exceptDecompressed s u ∧ StreamFits u)
      (Agrees State.beyondCommands s) := by
  have loaded (u : State) (hu : Agrees State.exceptRead t u) :
      Agrees (fun v => (v.exceptDecompressed, v.obuf)) s u :=
    (h.map fun p => (p.1, p.2.1)).trans (hu.map fun v => (v.exceptDecompressed, v.obuf))
  refine ends_thenPhase (ends_mono (ends_and (ends_self.2 (readBody_exceptRead t))
    (readBody_payloadKept t)) (fun u ⟨hrest, hkept, hfits⟩ => ⟨?_, hfits⟩)
    fun u hu => exceptDecompressed_beyondCommands ((loaded u hu.1).map Prod.fst))
  exact ⟨(loaded u hrest).map Prod.fst, (loaded u hrest).map Prod.snd,
    hkept.of_payload (h.map fun p => p.2.2)⟩

/-- On a stream no longer than the payload BP.DECODE uses no free value. -/
theorem startDecode_of_streamFits {s : State} (h : StreamFits s) :
    startDecode s = { s with acc := [], wpos := 0, bitpos := 0 } := by
  rw [startDecode, if_neg (Nat.not_lt.2 h)]

theorem bitsPart_outputWritten {s t : State} (h : PayloadWritten State.exceptDecompressed s t)
    (ht : StreamFits t) :
    (bitsPart t).Ends (OutputWritten State.exceptDecompressed s)
      (Agrees State.beyondCommands s) := by
  obtain ⟨hrest, hobuf, hpayload⟩ := h
  have walked := bpDecode_exceptDecoded t
  rw [startDecode_of_streamFits ht] at walked
  have wrote (u : State) (hu : Agrees State.exceptDecoded t u) :
      Agrees State.exceptDecompressed s u := hrest.trans (hu.map State.exceptDecompressed)
  refine ends_thenPhase (ends_of_holds (holds_and walked (bpDecode_obufKept t))
    (fun u ⟨hu, hkept⟩ => ?_) fun u hu => exceptDecompressed_beyondCommands (wrote u hu.1))
  exact ⟨wrote u hu, hkept.of_obuf hobuf,
    hpayload.to_same (Agrees.map hu fun v => (v.payload, v.plen))⟩

theorem decompressChain_writes {s t : State} (h : Unwritten State.exceptDecompressed s t) :
    (decompressChain t).Ends (OutputWritten State.exceptDecompressed s)
      (Agrees State.beyondCommands s) := by
  have loaded := ends_bind (headerPart_unwritten h) fun _ => tablePart_payloadWritten
  have walked := ends_bind loaded fun _ hu => bitsPart_outputWritten hu.1 hu.2
  have measured : ((((headerPart t).bind tablePart).bind bitsPart).bind lengthPart).Ends
      (OutputWritten State.exceptDecompressed s) (Agrees State.beyondCommands s) :=
    ends_bind walked fun _ ⟨hrest, hobuf, hpayload⟩ => ⟨hrest, hobuf, hpayload⟩
  exact ends_bind measured fun _ ⟨hrest, hobuf, hpayload⟩ => ⟨hrest, hobuf, hpayload⟩

theorem execDecompress_writes {s t : State} (h : execDecompress s = .next t) :
    WritesOnlyItsOutputs .decompress s t := by
  obtain ⟨hbeyond, hdone⟩ := command_writes (fun _ => exceptDecompressed_beyondCommands)
    (issue_unwritten State.exceptDecompressed _ s fun _ => rfl) (fun _ => decompressChain_writes) h
  refine ⟨beyondCommands_frame hbeyond, fun herr => ?_⟩
  obtain ⟨hrest, hobuf, hpayload⟩ := hdone herr
  exact ⟨hrest.restore (fun u => { u with
    op := t.op, phase := t.phase, busy := t.busy, done := t.done, err := t.err,
    errinfo := t.errinfo, olen := t.olen, obuf := t.obuf, wpos := t.wpos, rev := t.rev,
    payload := t.payload, plen := t.plen, vbc := t.vbc, rpos := t.rpos, acc := t.acc,
    bitpos := t.bitpos }) rfl, hobuf, hpayload⟩

end Commands

/-- Settles O20: each operation by its own frame; COMPRESS and DECOMPRESS use no free value where
they complete, because TB.BUILD leaves a tree and CF.READ a payload of the bits it counts. -/
theorem eachOperationWritesOnlyItsOutputs : Obligations.EachOperationWritesOnlyItsOutputs := by
  intro i s t h
  cases i with
  | compress => exact execCompress_writes h
  | decompress => exact execDecompress_writes h
  | pqInsert => exact unitOutcome_writes_heap (pqInsert_exceptHeap _ s) h
  | pqExtractMin => exact execPqExtractMin_writes h
  | pqBuild => exact unitOutcome_writes_heap (pqBuild_exceptHeap _ s) h
  | pqDecreaseKey => exact unitOutcome_writes_heap (pqDecreaseKey_exceptHeap _ s) h
  | fcCount => exact execFcCount_writes h
  | tbBuild => exact execTbBuild_writes h
  | cgGen => exact execCgGen_writes h
  | cgInvert => exact execCgInvert_writes h
  | bpEncode => exact execBpEncode_writes h
  | bpDecode => exact execBpDecode_writes h
  | cfWrite => exact execCfWrite_writes h
  | cfRead => exact execCfRead_writes h

end Sys2Proof.Machine

namespace Sys2Proof.Machine

/-! ### Operations that complete -/

/-- The operation completes, in a state with `P`. -/
def Res.Completes (P : State → Prop) : Res → Prop
  | .done s => P s
  | .raise _ _ => False
  | .stop _ => False

theorem completes_bind {P Q : State → Prop} {r : Res} {k : State → Res} (hr : r.Completes P)
    (hk : ∀ s, P s → (k s).Completes Q) : (r.bind k).Completes Q := by
  cases r with
  | done s => exact hk s hr
  | raise e s => exact hr.elim
  | stop f => exact hr.elim

theorem issue_of_legal {c : Byte} {o : TopOp} {s : State} (hc : commandOf c = some o)
    (hl : lengthLegal o s = true) : issue c s = .done (s.clearReport.setOp o).setBusy := by
  rw [issue, hc]
  exact if_pos hl

/-- A legal command, issued with BUSY = 0, whose chain completes (45_top_level.md R186, R195). -/
theorem command_of_completes {c : Byte} {o : TopOp} {chain : State → Res} {P : State → Prop}
    {s : State} (hb : s.busy = false) (hc : commandOf c = some o) (hl : lengthLegal o s = true)
    (h : (chain (s.clearReport.setOp o).setBusy).Completes P) :
    ∃ t, (if s.busy then .next s else commandOutcome ((issue c s).bind chain)) = .next t ∧ P t := by
  rw [if_neg (by simp [hb]), issue_of_legal hc hl, done_bind]
  cases hr : chain (s.clearReport.setOp o).setBusy with
  | done t =>
    rw [hr] at h
    exact ⟨t, rfl, h⟩
  | raise e t =>
    rw [hr] at h
    exact h.elim
  | stop f =>
    rw [hr] at h
    exact h.elim

/-- What both commands leave in the host registers where they complete (45_top_level.md R192). -/
def Completed (olen : Word) (t : State) : Prop :=
  t.done = true ∧ t.err = false ∧ t.busy = false ∧ t.op = .idle ∧ t.phase = .idle ∧
    t.errinfo = 0#32 ∧ t.olen = olen

/-- No error is reported, as after command issue (45_top_level.md R186). -/
structure NoReport (s : State) : Prop where
  err : s.err = false
  errinfo : s.errinfo = 0#32

theorem NoReport.completed {s : State} (h : NoReport s) : Completed s.olen s.complete :=
  ⟨rfl, h.err, rfl, rfl, rfl, h.errinfo, rfl⟩

/-! ### Runs of Emit -/

theorem writeBytes_append (m : Mem) (a : Nat) (xs ys : List Byte) :
    m.writeBytes a (xs ++ ys) = (m.writeBytes a xs).writeBytes (a + xs.length) ys := by
  induction xs generalizing m a with
  | nil => rfl
  | cons x xs ih =>
    rw [List.cons_append, Mem.writeBytes, ih, Mem.writeBytes, List.length_cons, Nat.add_assoc,
      Nat.add_comm 1]

/-- Successive Emits that all fit write one run of bytes (20_memory.md R69). -/
theorem forEach_emit_of_room {fields : List (List Byte)} {s : State}
    (h : s.wpos + fields.flatten.length ≤ s.params.obufCap.toNat) :
    forEach emit fields s =
      .done { s with
        obuf := s.obuf.writeBytes s.wpos fields.flatten
        wpos := s.wpos + fields.flatten.length } := by
  induction fields generalizing s with
  | nil => rfl
  | cons bs fields ih =>
    rw [List.flatten_cons, List.length_append] at h
    have first : emit bs s =
        .done { s with obuf := s.obuf.writeBytes s.wpos bs, wpos := s.wpos + bs.length } := by
      rw [emit, if_neg (by omega)]
    rw [forEach, first, done_bind, ih (by rw [Nat.add_assoc]; exact h), List.flatten_cons,
      writeBytes_append, List.length_append, Nat.add_assoc]

/-! ### The operations of COMPRESS on the empty text -/

theorem forEach_skip {α : Type} {body : α → State → Res} {xs : List α} {s : State}
    (h : ∀ x ∈ xs, body x s = .done s) : forEach body xs s = .done s := by
  induction xs with
  | nil => rfl
  | cons x xs ih =>
    rw [forEach, h x (by simp), done_bind]
    exact ih fun y hy => h y (by simp [hy])

theorem entry_of_constTable {α : Type} {a : α} {x : Byte × α} (h : x ∈ entries (constTable a)) :
    x.2 = a := by
  rw [(mem_entries _ x).1 h, tableGet_constTable]

section EmptyText

variable {s : State}

theorem inputText_of_ilen_zero (h : s.ilen = 0#32) : s.inputText = [] := by
  simp [State.inputText, State.ibufBytes, h]

theorem not_inputTooLong_of_ilen_zero (h : s.ilen = 0#32) : ¬ s.inputTooLong = true := by
  simp [State.inputTooLong, h]

theorem fcCount_of_ilen_zero (h : s.ilen = 0#32) :
    fcCount s = .done { s with freq := constTable 0#32 } := by
  rw [fcCount, if_neg (not_inputTooLong_of_ilen_zero h), inputText_of_ilen_zero h]
  rfl

theorem tbBuild_of_no_symbol (h : s.freq = constTable 0#32) :
    tbBuild s = .done { s with arena := [], heap := [], root := none } := by
  rw [tbBuild, h, forEach_skip fun x hx => by rw [addLeaf, if_pos (entry_of_constTable hx)]]
  rfl

theorem cgGen_of_no_tree (h : s.root = none) :
    cgGen s = .done { s with code := constTable [] } := by
  have hcodes : codesOf s.arena s.root = some (constTable []) := by
    rw [h]
    rfl
  rw [cgGen, hcodes]

theorem cgInvert_of_no_code (h : s.code = constTable []) :
    cgInvert s = .done { s with rev := [] } := by
  rw [cgInvert, h, forEach_skip fun x hx => by rw [invertEntry, if_pos (entry_of_constTable hx)]]

theorem bpEncode_of_ilen_zero (h : s.ilen = 0#32) :
    bpEncode s = .done (startPayload (startEncode s)) := by
  have hstart : (startEncode s).ilen = 0#32 := h
  have hmax : ¬ Config.maxBitCount < (startEncode s).bitpos := Nat.not_lt_zero _
  rw [bpEncode, inputText_of_ilen_zero h, forEach, done_bind,
    if_neg (not_inputTooLong_of_ilen_zero hstart), if_neg hmax,
    inputText_of_ilen_zero hstart, forEach]

/-- The fields of the empty container (30_encoding.md R89). -/
theorem containerFields_of_no_code :
    containerFields (constTable []) 0#32 [] = [bytesU32 0, bytesU32 0, []] := by
  have hcount : codeCount (constTable []) = 0 := by
    rw [codeCount, List.length_eq_zero_iff, List.filter_eq_nil_iff]
    intro x hx
    simp [entry_of_constTable hx]
  have hfields : (entries (constTable [])).flatMap entryFields = [] := by
    rw [List.flatMap_eq_nil_iff]
    intro x hx
    rw [entryFields, if_pos (entry_of_constTable hx)]
  rw [containerFields, hcount, hfields]
  rfl

theorem cfWrite_of_no_code (hc : s.code = constTable []) (hv : s.vbc = 0#32) (hp : s.plen = 0#32)
    (hroom : 8 ≤ s.params.obufCap.toNat) :
    cfWrite s =
      .done { s with obuf := s.obuf.writeBytes 0 (List.replicate 8 0#8), wpos := 8 } := by
  have hfields : containerFields s.code s.vbc (s.payload.readBytes .payload 0 s.plen.toNat) =
      [bytesU32 0, bytesU32 0, []] := by
    rw [hc, hv, hp]
    exact containerFields_of_no_code
  rw [cfWrite, hfields]
  exact forEach_emit_of_room hroom

end EmptyText

/-! ### COMPRESS of the empty text -/

/-- What the chain of COMPRESS finds at every part: the empty text, room for the empty container, no
error reported. -/
structure EmptyText (s : State) : Prop extends NoReport s where
  ilen : s.ilen = 0#32
  room : 8 ≤ s.params.obufCap.toNat

theorem countPart_emptyText {s : State} (h : EmptyText s) :
    (countPart s).Completes fun t => EmptyText t ∧ t.freq = constTable 0#32 := by
  rw [countPart, fcCount_of_ilen_zero h.ilen]
  exact ⟨{ h with }, rfl⟩

theorem treePart_emptyText {s : State} (h : EmptyText s) (hfreq : s.freq = constTable 0#32) :
    (treePart s).Completes fun t => EmptyText t ∧ t.root = none := by
  rw [treePart, tbBuild_of_no_symbol hfreq]
  exact ⟨{ h with }, rfl⟩

theorem codePart_emptyText {s : State} (h : EmptyText s) (hroot : s.root = none) :
    (codePart s).Completes fun t => EmptyText t ∧ t.code = constTable [] := by
  rw [codePart, cgGen_of_no_tree hroot, done_bind,
    cgInvert_of_no_code (s := { s with code := constTable [] }) rfl]
  exact ⟨{ h with }, rfl⟩

theorem packPart_emptyText {s : State} (h : EmptyText s) (hcode : s.code = constTable []) :
    (packPart s).Completes fun t =>
      EmptyText t ∧ t.code = constTable [] ∧ t.vbc = 0#32 ∧ t.plen = 0#32 := by
  rw [packPart, bpEncode_of_ilen_zero h.ilen]
  exact ⟨{ h with }, hcode, rfl, by simp [startPayload, startEncode, ceilDiv8]⟩

theorem writePart_emptyText {s : State} (h : EmptyText s) (hcode : s.code = constTable [])
    (hvbc : s.vbc = 0#32) (hplen : s.plen = 0#32) :
    (writePart s).Completes fun t =>
      NoReport t ∧ t.olen = 8#32 ∧ t.obuf.readBytes .obuf 0 8 = List.replicate 8 0#8 := by
  rw [writePart, cfWrite_of_no_code hcode hvbc hplen h.room]
  exact ⟨{ h.toNoReport with }, rfl, readBytes_writeBytes .obuf (List.replicate 8 0#8) s.obuf 0⟩

theorem compressChain_emptyText {s : State} (h : EmptyText s) :
    (compressChain s).Completes fun t =>
      Completed 8#32 t ∧ hostOutput t = List.replicate 8 0#8 := by
  have built := completes_bind (countPart_emptyText h) fun _ ht => treePart_emptyText ht.1 ht.2
  have coded := completes_bind built fun _ ht => codePart_emptyText ht.1 ht.2
  have packed := completes_bind coded fun _ ht => packPart_emptyText ht.1 ht.2
  have written := completes_bind packed fun _ ⟨ht, hcode, hvbc, hplen⟩ =>
    writePart_emptyText ht hcode hvbc hplen
  refine completes_bind written fun t ⟨hreport, holen, hobuf⟩ => ?_
  have completed := hreport.completed
  rw [holen] at completed
  refine ⟨completed, ?_⟩
  rw [hostOutput, complete_olen, holen]
  exact hobuf

theorem execCompress_of_empty_text {s : State} (hb : s.busy = false) (hlen : s.ilen = 0#32)
    (hroom : 8 ≤ s.params.obufCap.toNat) :
    ∃ t, execCompress s = .next t ∧ Completed 8#32 t ∧ hostOutput t = List.replicate 8 0#8 :=
  command_of_completes hb rfl (by simp [lengthLegal, hlen])
    (compressChain_emptyText ⟨⟨rfl, rfl⟩, hlen, hroom⟩)

/-! ### DECOMPRESS of the empty container -/

/-- What the chain of DECOMPRESS finds at every part: an input that begins with the empty container,
no error reported. -/
structure EmptyContainer (s : State) : Prop extends NoReport s where
  length : 8 ≤ s.ilen.toNat
  legal : s.ilen.toNat ≤ s.params.ibufCap.toNat
  zeros : s.ibuf.readBytes .ibuf 0 8 = List.replicate 8 0#8

namespace EmptyContainer

variable {s : State}

/-- Both numbers of the empty container are 0 (30_encoding.md R89). -/
theorem words (h : EmptyContainer s) :
    s.ibufBytes 0 4 = List.replicate 4 0#8 ∧ s.ibufBytes 4 4 = List.replicate 4 0#8 := by
  have hzeros := h.zeros
  rw [readBytes_append .ibuf s.ibuf 0 4 4] at hzeros
  exact List.append_inj hzeros (readBytes_length _ _ _ _)

theorem need_four (h : EmptyContainer s) (k : List Byte → State → Res)
    (hr : s.rpos = 0 ∨ s.rpos = 4) :
    need 4 s k = k (List.replicate 4 0#8) { s with rpos := s.rpos + 4 } := by
  have hlen := h.length
  have hbytes : s.ibuf.readBytes .ibuf s.rpos 4 = List.replicate 4 0#8 := by
    rcases hr with hr | hr <;> rw [hr]
    · exact h.words.1
    · exact h.words.2
  rw [need_of_legal 4 s k (by omega) h.legal, if_neg (by omega), hbytes]

end EmptyContainer

theorem headerPart_emptyContainer {s : State} (h : EmptyContainer s) :
    (headerPart s).Completes fun t => EmptyContainer t ∧ t.rpos = 4 := by
  have start : EmptyContainer { s with rpos := 0, rev := [] } := { h with }
  rw [headerPart, readHeader, start.need_four _ (.inl rfl)]
  exact ⟨{ h with }, rfl⟩

theorem readPayload_emptyContainer {s : State} (h : EmptyContainer s) (hr : s.rpos = 4) :
    (readPayload s).Completes fun t => NoReport t ∧ t.vbc = 0#32 := by
  rw [readPayload, h.need_four _ (.inr hr)]
  exact ⟨{ h.toNoReport with }, rfl⟩

theorem tablePart_emptyContainer {s : State} (h : EmptyContainer s) (hr : s.rpos = 4) :
    (tablePart s).Completes fun t => NoReport t ∧ t.vbc = 0#32 := by
  have hsize : dictSize s = 0 := by
    rw [dictSize, h.words.1]
    rfl
  rw [tablePart, readBody, hsize, readEntries, done_bind]
  exact completes_bind (readPayload_emptyContainer h hr) fun t ⟨ht, hvbc⟩ => ⟨{ ht with }, hvbc⟩

/-- BP.DECODE of no bits (43_bit_packer.md R161). -/
theorem bitsPart_of_no_bits {s : State} (h : NoReport s) (hvbc : s.vbc = 0#32) :
    (bitsPart s).Completes fun t => NoReport t ∧ t.wpos = 0 := by
  rw [bitsPart, bpDecode, hvbc]
  exact ⟨{ h with }, rfl⟩

theorem decompressChain_emptyContainer {s : State} (h : EmptyContainer s) :
    (decompressChain s).Completes (Completed 0#32) := by
  have loaded := completes_bind (headerPart_emptyContainer h) fun _ ht =>
    tablePart_emptyContainer ht.1 ht.2
  have walked := completes_bind loaded fun _ ht => bitsPart_of_no_bits ht.1 ht.2
  have measured := completes_bind (k := lengthPart) (Q := fun t => NoReport t ∧ t.olen = 0#32)
    walked fun t ⟨ht, hwpos⟩ => ⟨{ ht with }, by rw [setPhase_olen, setOlen_olen, hwpos]⟩
  refine completes_bind measured fun t ⟨hreport, holen⟩ => ?_
  rw [← holen]
  exact hreport.completed

theorem execDecompress_of_empty_container {s : State} (hb : s.busy = false)
    (hlen : 8 ≤ s.ilen.toNat) (hlegal : s.ilen.toNat ≤ s.params.ibufCap.toNat)
    (hzeros : s.ibuf.readBytes .ibuf 0 8 = List.replicate 8 0#8) :
    ∃ t, execDecompress s = .next t ∧ Completed 0#32 t :=
  command_of_completes hb rfl (by simp [lengthLegal, hlegal])
    (decompressChain_emptyContainer ⟨⟨rfl, rfl⟩, hlen, hlegal, hzeros⟩)

/-- Settles O55: with no symbol there is no tree and no code, so COMPRESS writes two zero words, and
DECOMPRESS of them reads no entry and no bit. -/
theorem theEmptyTextAndTheEmptyContainer : Obligations.TheEmptyTextAndTheEmptyContainer := by
  refine ⟨fun s hb hlen hroom => ?_, fun s hb hlen hlegal hzeros => ?_⟩
  · obtain ⟨t, ht, ⟨hdone, herr, hbusy, hop, hphase, hinfo, holen⟩, hout⟩ :=
      execCompress_of_empty_text hb hlen hroom
    exact ⟨t, ht, hdone, herr, hbusy, hop, hphase, hinfo, holen, hout⟩
  · exact execDecompress_of_empty_container hb hlen hlegal hzeros

end Sys2Proof.Machine

/-! ### Comparing the elements of a heap by index -/

namespace Sys2Proof.Machine

/-- Index `c` is a child of index `p` in the heap (40_priority_queue.md R101). -/
def IsChild (p c : Nat) : Prop := c = 2 * p + 1 ∨ c = 2 * p + 2

namespace IsChild

variable {p q c : Nat}

theorem left (p : Nat) : IsChild p (2 * p + 1) := .inl rfl

theorem right (p : Nat) : IsChild p (2 * p + 2) := .inr rfl

theorem of_pos (hc : 0 < c) : IsChild ((c - 1) / 2) c := by
  unfold IsChild
  omega

theorem pos (hc : IsChild p c) : 0 < c := by
  unfold IsChild at hc
  omega

theorem parent_eq (hc : IsChild p c) : (c - 1) / 2 = p := by
  unfold IsChild at hc
  omega

theorem lt (hc : IsChild p c) : p < c := by
  unfold IsChild at hc
  omega

theorem parent_unique (hp : IsChild p c) (hq : IsChild q c) : p = q :=
  hp.parent_eq.symm.trans hq.parent_eq

end IsChild

section Compare

variable {less : Elem → Elem → Bool} {h : List Elem} {i j k : Nat}

theorem lessAt_of_getElem? {a b : Elem} (ha : h[i]? = some a) (hb : h[j]? = some b) :
    lessAt less h i j = less a b := by rw [lessAt, ha, hb]

theorem lessAt_of_length_le (hi : h.length ≤ i) : lessAt less h i j = false := by
  rw [lessAt, List.getElem?_eq_none hi]

/-- The heap invariant by index (40_priority_queue.md R101). -/
theorem heapOrdered_iff :
    HeapOrdered less h ↔ ∀ p c, IsChild p c → lessAt less h c p = false := by
  constructor
  · intro hh p c hc
    refine Bool.eq_false_iff.2 fun hl => ?_
    obtain ⟨a, b, ha, hb, hab⟩ := lessAt_true hl
    rw [← hc.parent_eq] at hb
    exact Bool.false_ne_true ((hh c a b hc.pos ha hb).symm.trans hab)
  · intro hh c a b hc ha hb
    rw [← lessAt_of_getElem? (less := less) ha hb]
    exact hh _ c (.of_pos hc)

theorem heapOrdered_nil : HeapOrdered less [] := by
  intro i a b _ ha
  simp at ha

theorem lessAt_swapAt (hi : i < h.length) (hj : j < h.length) (x y : Nat) :
    lessAt less (swapAt h i j) x y = lessAt less h (Equiv.swap i j x) (Equiv.swap i j y) := by
  have lookup (k : Nat) : (swapAt h i j)[k]? = h[Equiv.swap i j k]? := by
    rw [swapAt_getElem? h i j k hi hj, Equiv.swap_comm, Equiv.swap_apply_def]
    simp only [apply_ite (h[·]?)]
  rw [lessAt, lookup, lookup, lessAt]

theorem swapAt_of_getElem? {a b : Elem} (ha : h[i]? = some a) (hb : h[j]? = some b) :
    swapAt h i j = (h.set i b).set j a := by rw [swapAt, ha, hb]

theorem lessAt_set_of_ne {v : Elem} (hi : i ≠ k) (hj : j ≠ k) :
    lessAt less (h.set k v) i j = lessAt less h i j := by
  simp only [lessAt, List.getElem?_set_ne hi.symm, List.getElem?_set_ne hj.symm]

theorem lessAt_append_of_lt {l : List Elem} (hi : i < h.length) (hj : j < h.length) :
    lessAt less (h ++ l) i j = lessAt less h i j := by
  simp only [lessAt, List.getElem?_append_left hi, List.getElem?_append_left hj]

namespace StrictWeak

theorem lessAt_self (hw : StrictWeak less) (i : Nat) : lessAt less h i i = false := by
  cases hi : h[i]? with
  | none => exact lessAt_of_length_le (List.getElem?_eq_none_iff.1 hi)
  | some a => rw [lessAt_of_getElem? hi hi, hw.irrefl]

theorem lessAt_trans (hw : StrictWeak less) (hij : lessAt less h i j = true)
    (hjk : lessAt less h j k = true) : lessAt less h i k = true := by
  obtain ⟨a, b, ha, hb, hab⟩ := lessAt_true hij
  obtain ⟨b', c, hb', hc, hbc⟩ := lessAt_true hjk
  obtain rfl : b = b' := Option.some.inj (hb ▸ hb')
  rw [lessAt_of_getElem? ha hc]
  exact hw.trans a b c hab hbc

theorem lessAt_asymm (hw : StrictWeak less) (hij : lessAt less h i j = true) :
    lessAt less h j i = false :=
  Bool.eq_false_iff.2 fun hji =>
    Bool.false_ne_true ((hw.lessAt_self i).symm.trans (hw.lessAt_trans hij hji))

/-- What is not less than an element is not less than a lesser one. -/
theorem not_lessAt_of_lessAt (hw : StrictWeak less) (hij : lessAt less h i j = true)
    (hkj : lessAt less h k j = false) : lessAt less h k i = false :=
  Bool.eq_false_iff.2 fun hki =>
    Bool.false_ne_true (hkj.symm.trans (hw.lessAt_trans hki hij))

/-- "Not less" is transitive, through an index that exists. -/
theorem not_lessAt_trans (hw : StrictWeak less) (hj : j < h.length)
    (hij : lessAt less h i j = false) (hjk : lessAt less h j k = false) :
    lessAt less h i k = false := by
  refine Bool.eq_false_iff.2 fun hik => ?_
  obtain ⟨a, c, ha, hc, hac⟩ := lessAt_true hik
  have hb := List.getElem?_eq_getElem hj
  rcases hw.cotrans a h[j] c hac with hab | hbc
  · exact Bool.false_ne_true (hij.symm.trans ((lessAt_of_getElem? ha hb).trans hab))
  · exact Bool.false_ne_true (hjk.symm.trans ((lessAt_of_getElem? hb hc).trans hbc))

end StrictWeak

namespace HeapOrdered

/-- The root of a heap is a minimum, by induction along the path to the root (40_priority_queue.md
R111). -/
theorem not_lessAt_root (hh : HeapOrdered less h) (hw : StrictWeak less) (i : Nat) :
    lessAt less h i 0 = false := by
  induction i using Nat.strongRecOn with
  | ind i ih =>
    rcases Nat.eq_zero_or_pos i with rfl | hi
    · exact hw.lessAt_self 0
    · rcases Nat.lt_or_ge i h.length with hlt | hge
      · exact hw.not_lessAt_trans (j := (i - 1) / 2) (by omega)
          (heapOrdered_iff.1 hh _ i (.of_pos hi)) (ih _ (by omega))
      · exact lessAt_of_length_le hge

theorem root_is_minimum {r : Elem} {l : List Elem} (hh : HeapOrdered less (r :: l))
    (hw : StrictWeak less) : ∀ x ∈ r :: l, less x r = false := by
  intro x hx
  obtain ⟨i, hi⟩ := List.mem_iff_getElem?.1 hx
  have hroot : (r :: l)[0]? = some r := rfl
  rw [← lessAt_of_getElem? (less := less) hi hroot]
  exact hh.not_lessAt_root hw i

end HeapOrdered

end Compare

end Sys2Proof.Machine

/-! ### The equations of the two sifts -/

namespace Sys2Proof.Machine

section Equations

variable {less : Elem → Elem → Bool}

/-- `i` iterations of siftUp's loop suffice (40_priority_queue.md R103). -/
theorem siftUpLoop_bound {n m i : Nat} (h : List Elem) (hn : i ≤ n) (hm : i ≤ m) :
    siftUpLoop less n h i = siftUpLoop less m h i := by
  induction n generalizing m h i with
  | zero =>
    cases m with
    | zero => rfl
    | succ m => rw [siftUpLoop, siftUpLoop, if_neg (by omega)]
  | succ n ih =>
    cases m with
    | zero => rw [siftUpLoop, siftUpLoop, if_neg (by omega)]
    | succ m =>
      rw [siftUpLoop, siftUpLoop]
      split
      · exact ih _ (by omega) (by omega)
      · rfl

/-- One iteration of siftUp (40_priority_queue.md R103). -/
theorem siftUp_eq (h : List Elem) (i : Nat) : siftUp less h i =
    if 0 < i ∧ lessAt less h i ((i - 1) / 2) = true then
      siftUp less (swapAt h i ((i - 1) / 2)) ((i - 1) / 2)
    else h := by
  rw [siftUp, siftUpLoop_bound h (Nat.le_refl i) (Nat.le_succ i), siftUpLoop]
  split
  · exact siftUpLoop_bound _ (by omega) (Nat.le_refl _)
  · rfl

variable {h : List Elem} {i : Nat}

theorem smallest_eq_left (hl : lessAt less h (2 * i + 1) i = true)
    (hr : lessAt less h (2 * i + 2) (2 * i + 1) = false) : smallest less h i = 2 * i + 1 := by
  simp [smallest, hl, hr]

theorem smallest_eq_right (hr : lessAt less h (2 * i + 2) i = true)
    (hl : lessAt less h (2 * i + 1) i = true → lessAt less h (2 * i + 2) (2 * i + 1) = true) :
    smallest less h i = 2 * i + 2 := by
  cases hli : lessAt less h (2 * i + 1) i with
  | false => simp [smallest, hli, hr]
  | true => simp [smallest, hli, hl hli]

theorem smallest_eq_self (hl : lessAt less h (2 * i + 1) i = false)
    (hr : lessAt less h (2 * i + 2) i = false) : smallest less h i = i := by
  simp [smallest, hl, hr]

/-- Where siftDown goes on: at a lesser child, and no child is less than it (40_priority_queue.md
R104). -/
structure LesserChild (less : Elem → Elem → Bool) (h : List Elem) (i m : Nat) : Prop where
  child : IsChild i m
  less_parent : lessAt less h m i = true
  least : ∀ c, IsChild i c → lessAt less h c m = false

/-- Everything the index `m` of siftDown can be (40_priority_queue.md R104). -/
theorem smallest_cases (hw : StrictWeak less) (h : List Elem) (i : Nat) :
    (smallest less h i = i ∧ ∀ c, IsChild i c → lessAt less h c i = false) ∨
      LesserChild less h i (smallest less h i) := by
  cases hl : lessAt less h (2 * i + 1) i with
  | false =>
    cases hr : lessAt less h (2 * i + 2) i with
    | false =>
      refine .inl ⟨smallest_eq_self hl hr, ?_⟩
      rintro c (rfl | rfl)
      · exact hl
      · exact hr
    | true =>
      rw [smallest_eq_right hr (by simp [hl])]
      refine .inr ⟨.right i, hr, ?_⟩
      rintro c (rfl | rfl)
      · exact hw.not_lessAt_of_lessAt hr hl
      · exact hw.lessAt_self _
  | true =>
    cases hrl : lessAt less h (2 * i + 2) (2 * i + 1) with
    | false =>
      rw [smallest_eq_left hl hrl]
      refine .inr ⟨.left i, hl, ?_⟩
      rintro c (rfl | rfl)
      · exact hw.lessAt_self _
      · exact hrl
    | true =>
      have hr := hw.lessAt_trans hrl hl
      rw [smallest_eq_right hr fun _ => hrl]
      refine .inr ⟨.right i, hr, ?_⟩
      rintro c (rfl | rfl)
      · exact hw.lessAt_asymm hrl
      · exact hw.lessAt_self _

namespace LesserChild

variable {m : Nat}

theorem lt (hm : LesserChild less h i m) : i < m := hm.child.lt

theorem lt_length (hm : LesserChild less h i m) : m < h.length := (lessAt_lt hm.less_parent).1

end LesserChild

/-- SIZE − `i` iterations of siftDown's loop suffice (40_priority_queue.md R104). -/
theorem siftDownLoop_bound (hw : StrictWeak less) {n m i : Nat} (h : List Elem)
    (hn : h.length - i ≤ n) (hm : h.length - i ≤ m) :
    siftDownLoop less n h i = siftDownLoop less m h i := by
  induction n generalizing m h i with
  | zero =>
    cases m with
    | zero => rfl
    | succ m =>
      rcases smallest_cases hw h i with ⟨hs, _⟩ | hs
      · rw [siftDownLoop, siftDownLoop, if_pos hs]
      · exact absurd hs.lt_length (by have := hs.lt; omega)
  | succ n ih =>
    rcases smallest_cases hw h i with ⟨hs, _⟩ | hs
    · cases m with
      | zero => rw [siftDownLoop, siftDownLoop, if_pos hs]
      | succ m => rw [siftDownLoop, siftDownLoop, if_pos hs, if_pos hs]
    · have hlt := hs.lt
      have hlen := hs.lt_length
      cases m with
      | zero => omega
      | succ m =>
        rw [siftDownLoop, siftDownLoop, if_neg hlt.ne', if_neg hlt.ne']
        exact ih _ (by rw [swapAt_length]; omega) (by rw [swapAt_length]; omega)

/-- One iteration of siftDown (40_priority_queue.md R104). -/
theorem siftDown_eq (hw : StrictWeak less) (h : List Elem) (i : Nat) : siftDown less h i =
    if smallest less h i = i then h
    else siftDown less (swapAt h i (smallest less h i)) (smallest less h i) := by
  rw [siftDown, siftDownLoop_bound hw h (Nat.sub_le _ _) (Nat.le_succ_of_le (Nat.sub_le _ _)),
    siftDownLoop]
  split
  · rfl
  · rw [siftDown, swapAt_length]

end Equations

end Sys2Proof.Machine

/-! ### The sifts restore the heap invariant -/

namespace Sys2Proof.Machine

/-- No element is less than its parent, for the parents at `k` and above: what PQ.BUILD has done
when it has sifted down index `k` (40_priority_queue.md R107). -/
def OrderedFrom (less : Elem → Elem → Bool) (k : Nat) (h : List Elem) : Prop :=
  ∀ p c, IsChild p c → k ≤ p → lessAt less h c p = false

/-- A heap but for the element at `i`, which may be less than its parent: what siftUp mends
(40_priority_queue.md R103). -/
structure RisesAt (less : Elem → Elem → Bool) (h : List Elem) (i : Nat) : Prop where
  edges : ∀ p c, IsChild p c → c ≠ i → lessAt less h c p = false
  /-- The children of `i` are not less than its parent. -/
  bridge : ∀ p c, IsChild p i → IsChild i c → lessAt less h c p = false

/-- Ordered from `k` on but for the element at `i`, which may be greater than its children: what
siftDown mends (40_priority_queue.md R104). -/
structure SinksAt (less : Elem → Elem → Bool) (k : Nat) (h : List Elem) (i : Nat) : Prop where
  edges : ∀ p c, IsChild p c → k ≤ p → p ≠ i → lessAt less h c p = false
  /-- The children of `i` are not less than its parent. -/
  bridge : ∀ p c, IsChild p i → k ≤ p → IsChild i c → lessAt less h c p = false

section Restore

variable {less : Elem → Elem → Bool} {h : List Elem} {i k : Nat}

theorem orderedFrom_zero : OrderedFrom less 0 h ↔ HeapOrdered less h := by
  simp [OrderedFrom, heapOrdered_iff]

/-! siftUp -/

theorem RisesAt.heapOrdered (hr : RisesAt less h i)
    (hi : ∀ p, IsChild p i → lessAt less h i p = false) : HeapOrdered less h := by
  refine heapOrdered_iff.2 fun p c hc => ?_
  by_cases hci : c = i
  · subst hci
    exact hi p hc
  · exact hr.edges p c hc hci

/-- Swapped with its greater parent, the element may be less than its next parent only. -/
theorem RisesAt.swap (hw : StrictWeak less) (hr : RisesAt less h i) {p : Nat} (hp : IsChild p i)
    (hl : lessAt less h i p = true) : RisesAt less (swapAt h i p) p := by
  obtain ⟨hilt, hplt⟩ := lessAt_lt hl
  have hpi := hp.lt
  constructor
  · intro q c hc hcp
    have hqc := hc.lt
    rw [lessAt_swapAt hilt hplt]
    by_cases hqi : q = i
    · subst hqi
      rw [Equiv.swap_apply_left, Equiv.swap_apply_of_ne_of_ne hqc.ne' hcp]
      exact hr.bridge p c hp hc
    by_cases hci : c = i
    · subst hci
      obtain rfl := hc.parent_unique hp
      rw [Equiv.swap_apply_left, Equiv.swap_apply_right]
      exact hw.lessAt_asymm hl
    rw [Equiv.swap_apply_of_ne_of_ne hci hcp]
    by_cases hqp : q = p
    · subst hqp
      rw [Equiv.swap_apply_right]
      exact hw.not_lessAt_of_lessAt hl (hr.edges q c hc hci)
    · rw [Equiv.swap_apply_of_ne_of_ne hqi hqp]
      exact hr.edges q c hc hci
  · intro q c hq hc
    have hqp := hq.lt
    have hup := hr.edges q p hq hpi.ne
    rw [lessAt_swapAt hilt hplt, Equiv.swap_apply_of_ne_of_ne (hqp.trans hpi).ne hqp.ne]
    by_cases hci : c = i
    · subst hci
      rw [Equiv.swap_apply_left]
      exact hup
    · rw [Equiv.swap_apply_of_ne_of_ne hci hc.lt.ne']
      exact hw.not_lessAt_trans hplt (hr.edges p c hc hci) hup

theorem siftUp_heapOrdered (hw : StrictWeak less) (hr : RisesAt less h i) :
    HeapOrdered less (siftUp less h i) := by
  induction i using Nat.strongRecOn generalizing h with
  | ind i ih =>
    rw [siftUp_eq]
    split
    next hi =>
      obtain ⟨hpos, hl⟩ := hi
      exact ih _ (by omega) (hr.swap hw (.of_pos hpos) hl)
    next hi =>
      refine hr.heapOrdered fun p hp => Bool.eq_false_iff.2 fun hl => hi ⟨hp.pos, ?_⟩
      rwa [hp.parent_eq]

/-! siftDown -/

theorem SinksAt.orderedFrom (hs : SinksAt less k h i)
    (hi : ∀ c, IsChild i c → lessAt less h c i = false) : OrderedFrom less k h := by
  intro p c hc hp
  by_cases hpi : p = i
  · subst hpi
    exact hi c hc
  · exact hs.edges p c hc hp hpi

/-- Swapped with its lesser child, the element may be greater than its next children only. -/
theorem SinksAt.swap (hw : StrictWeak less) (hs : SinksAt less k h i) (hk : k ≤ i) {m : Nat}
    (hm : LesserChild less h i m) : SinksAt less k (swapAt h i m) m := by
  obtain ⟨hmlt, hilt⟩ := lessAt_lt hm.less_parent
  have him := hm.lt
  constructor
  · intro p c hc hp hpm
    have hpc := hc.lt
    rw [lessAt_swapAt hilt hmlt]
    by_cases hpi : p = i
    · subst hpi
      rw [Equiv.swap_apply_left]
      by_cases hcm : c = m
      · subst hcm
        rw [Equiv.swap_apply_right]
        exact hw.lessAt_asymm hm.less_parent
      · rw [Equiv.swap_apply_of_ne_of_ne hpc.ne' hcm]
        exact hm.least c hc
    rw [Equiv.swap_apply_of_ne_of_ne hpi hpm]
    by_cases hci : c = i
    · subst hci
      rw [Equiv.swap_apply_left]
      exact hs.bridge p m hc hp hm.child
    · have hcm : c ≠ m := fun hcm => hpi (hc.parent_unique (hcm ▸ hm.child))
      rw [Equiv.swap_apply_of_ne_of_ne hci hcm]
      exact hs.edges p c hc hp hpi
  · intro p c hp _ hc
    obtain rfl := hp.parent_unique hm.child
    have hmc := hc.lt
    rw [lessAt_swapAt hilt hmlt, Equiv.swap_apply_left,
      Equiv.swap_apply_of_ne_of_ne (him.trans hmc).ne' hmc.ne']
    exact hs.edges m c hc (hk.trans him.le) him.ne'

theorem siftDown_orderedFrom (hw : StrictWeak less) (hk : k ≤ i) (hs : SinksAt less k h i) :
    OrderedFrom less k (siftDown less h i) := by
  induction hn : h.length - i using Nat.strongRecOn generalizing h i with
  | ind n ih =>
    rw [siftDown_eq hw]
    rcases smallest_cases hw h i with ⟨hself, hleast⟩ | hm
    · rw [if_pos hself]
      exact hs.orderedFrom hleast
    · have hlt := hm.lt
      have hlen := hm.lt_length
      rw [if_neg hlt.ne']
      subst hn
      exact ih _ (by rw [swapAt_length]; omega) (hk.trans hlt.le) (hs.swap hw hk hm) rfl

/-! The four operations -/

theorem heapInsert_heapOrdered (hw : StrictWeak less) (hh : HeapOrdered less h) (v : Elem) :
    HeapOrdered less (heapInsert less h v) := by
  refine siftUp_heapOrdered hw ⟨fun p c hc hne => ?_, fun p c _ hc => ?_⟩
  · have hpc := hc.lt
    rcases Nat.lt_or_ge c h.length with hlt | hge
    · rw [lessAt_append_of_lt hlt (hpc.trans hlt)]
      exact heapOrdered_iff.1 hh p c hc
    · exact lessAt_of_length_le (by simp; omega)
  · have := hc.lt
    exact lessAt_of_length_le (by simp; omega)

/-- A heap stays one when its last elements are taken away. -/
theorem HeapOrdered.of_append {l : List Elem} (hh : HeapOrdered less (h ++ l)) :
    HeapOrdered less h := by
  refine heapOrdered_iff.2 fun p c hc => ?_
  rcases Nat.lt_or_ge c h.length with hlt | hge
  · rw [← lessAt_append_of_lt (l := l) hlt (hc.lt.trans hlt)]
    exact heapOrdered_iff.1 hh p c hc
  · exact lessAt_of_length_le hge

/-- Another element at the root of a heap: what an extraction sifts down. -/
theorem HeapOrdered.sinksAt_root {r v : Elem} {m : List Elem} (hh : HeapOrdered less (r :: m)) :
    SinksAt less 0 (v :: m) 0 := by
  constructor
  · intro p c hc _ hp
    have hset : v :: m = (r :: m).set 0 v := rfl
    rw [hset, lessAt_set_of_ne hc.pos.ne' hp]
    exact heapOrdered_iff.1 hh p c hc
  · intro p c hp
    exact absurd hp.pos (Nat.lt_irrefl 0)

theorem heapExtract_heapOrdered (hw : StrictWeak less) (hh : HeapOrdered less h) :
    HeapOrdered less (heapExtract less h) := by
  match h with
  | [] => exact hh
  | r :: l =>
    rcases List.eq_nil_or_concat' l with rfl | ⟨m, v, rfl⟩
    · exact heapOrdered_nil
    · rw [← List.cons_append] at hh ⊢
      rw [heapExtract_more]
      exact orderedFrom_zero.1 (siftDown_orderedFrom hw (Nat.le_refl 0) hh.of_append.sinksAt_root)

/-- Index `k` is all that may be out of order when PQ.BUILD comes to it. -/
theorem OrderedFrom.sinksAt (ho : OrderedFrom less (k + 1) h) : SinksAt less k h k := by
  constructor
  · intro p c hc hk hne
    exact ho p c hc (by omega)
  · intro p c hp hk
    have := hp.lt
    omega

theorem heapify_heapOrdered (hw : StrictWeak less) (ho : OrderedFrom less k h) :
    HeapOrdered less (heapify less k h) := by
  induction k generalizing h with
  | zero => exact orderedFrom_zero.1 ho
  | succ k ih => exact ih (siftDown_orderedFrom hw (Nat.le_refl k) ho.sinksAt)

/-- No index from `n / 2` on has a child. -/
theorem heapBuild_heapOrdered (hw : StrictWeak less) (items : List Elem) :
    HeapOrdered less (heapBuild less items) := by
  refine heapify_heapOrdered hw fun p c hc hp => lessAt_of_length_le ?_
  unfold IsChild at hc
  omega

theorem HeapOrdered.risesAt (hw : StrictWeak less) (hh : HeapOrdered less h) (i : Nat) :
    RisesAt less h i := by
  refine ⟨fun p c hc _ => heapOrdered_iff.1 hh p c hc, fun p c hp hc => ?_⟩
  rcases Nat.lt_or_ge i h.length with hlt | hge
  · exact hw.not_lessAt_trans hlt (heapOrdered_iff.1 hh i c hc) (heapOrdered_iff.1 hh p i hp)
  · exact lessAt_of_length_le (hge.trans hc.lt.le)

/-- What is not less than an element is not less than a lesser one put in its place. -/
theorem not_lessAt_set (hw : StrictWeak less) {c : Nat} {v old : Elem} (hold : h[i]? = some old)
    (hv : less v old = true) (hci : c ≠ i) (hc : lessAt less h c i = false) :
    lessAt less (h.set i v) c i = false := by
  refine Bool.eq_false_iff.2 fun hl => ?_
  obtain ⟨a, b, ha, hb, hab⟩ := lessAt_true hl
  rw [List.getElem?_set_ne hci.symm] at ha
  rw [List.getElem?_set_self (List.getElem?_eq_some_iff.1 hold).1] at hb
  obtain rfl : v = b := Option.some.inj hb
  rw [lessAt_of_getElem? ha hold] at hc
  exact Bool.false_ne_true (hc.symm.trans (hw.trans a v old hab hv))

/-- A lesser element in a heap: what a decrease sifts up. -/
theorem RisesAt.set (hw : StrictWeak less) {v old : Elem} (hr : RisesAt less h i)
    (hold : h[i]? = some old) (hv : less v old = true) : RisesAt less (h.set i v) i := by
  constructor
  · intro p c hc hci
    have hedge := hr.edges p c hc hci
    by_cases hpi : p = i
    · subst hpi
      exact not_lessAt_set hw hold hv hci hedge
    · rwa [lessAt_set_of_ne hci hpi]
  · intro p c hp hc
    rw [lessAt_set_of_ne hc.lt.ne' hp.lt.ne]
    exact hr.bridge p c hp hc

theorem heapDecrease_heapOrdered (hw : StrictWeak less) {v : Elem} (hh : HeapOrdered less h)
    (hv : ∀ old, h[i]? = some old → less v old = true) :
    HeapOrdered less (heapDecrease less h i v) := by
  have hr := hh.risesAt hw i
  cases hold : h[i]? with
  | none =>
    rw [heapDecrease, List.set_eq_of_length_le (List.getElem?_eq_none_iff.1 hold)]
    exact siftUp_heapOrdered hw hr
  | some old => exact siftUp_heapOrdered hw (hr.set hw hold (hv old hold))

/-! One iteration of a sift, by the elements it compares -/

theorem siftUp_swap {a p : Elem} (hi : 0 < i) (ha : h[i]? = some a)
    (hp : h[(i - 1) / 2]? = some p) (hl : less a p = true) :
    siftUp less h i = siftUp less ((h.set i p).set ((i - 1) / 2) a) ((i - 1) / 2) := by
  rw [siftUp_eq, lessAt_of_getElem? ha hp, if_pos ⟨hi, hl⟩, swapAt_of_getElem? ha hp]

theorem siftUp_stop {a p : Elem} (ha : h[i]? = some a) (hp : h[(i - 1) / 2]? = some p)
    (hl : less a p = false) : siftUp less h i = h := by
  rw [siftUp_eq, lessAt_of_getElem? ha hp, if_neg (by simp [hl])]

theorem siftDown_stop (hw : StrictWeak less) (hs : smallest less h i = i) :
    siftDown less h i = h := by rw [siftDown_eq hw, if_pos hs]

theorem siftDown_swap (hw : StrictWeak less) {m : Nat} {a b : Elem}
    (hs : smallest less h i = m) (hm : IsChild i m) (ha : h[i]? = some a) (hb : h[m]? = some b) :
    siftDown less h i = siftDown less ((h.set i b).set m a) m := by
  rw [siftDown_eq hw, hs, if_neg hm.lt.ne', swapAt_of_getElem? ha hb]

theorem smallest_eq_self_of_leaf (hi : h[2 * i + 1]? = none) : smallest less h i = i := by
  rw [List.getElem?_eq_none_iff] at hi
  exact smallest_eq_self (lessAt_of_length_le hi) (lessAt_of_length_le (by omega))

/-- An element that may not exist is not less than another. -/
theorem not_lessAt_of_getElem? {j : Nat} {b : Elem} (hb : h[j]? = some b)
    (hr : ∀ r, h[i]? = some r → less r b = false) : lessAt less h i j = false := by
  cases hi : h[i]? with
  | none => exact lessAt_of_length_le (List.getElem?_eq_none_iff.1 hi)
  | some r => exact (lessAt_of_getElem? hi hb).trans (hr r hi)

end Restore

/-- Settles O35: the four operations by what each leaves for its sift to mend, and the rules of R103
and R104 by one iteration of each sift. -/
theorem siftsRestoreTheHeapUnderAnyOrder : Obligations.SiftsRestoreTheHeapUnderAnyOrder := by
  intro less hw
  refine ⟨fun h v hh => heapInsert_heapOrdered hw hh v, fun h hh => heapExtract_heapOrdered hw hh,
    heapBuild_heapOrdered hw, fun h i v hh hv => heapDecrease_heapOrdered hw hh hv,
    fun h => rfl, fun h i a p hi ha hp => ⟨siftUp_swap hi ha hp, siftUp_stop ha hp⟩,
    fun h i hi => siftDown_stop hw (smallest_eq_self_of_leaf hi), fun h i a l ha hl => ?_⟩
  have hli : lessAt less h (2 * i + 1) i = less l a := lessAt_of_getElem? hl ha
  refine ⟨fun hla hrl => ?_, fun r hr hra hrl => ?_, fun hla hra => ?_⟩
  · have hleft := smallest_eq_left (hli.trans hla) (not_lessAt_of_getElem? hl hrl)
    exact siftDown_swap hw hleft (.left i) ha hl
  · have hright := smallest_eq_right ((lessAt_of_getElem? hr ha).trans hra) fun h' =>
      (lessAt_of_getElem? hr hl).trans (hrl (hli.symm.trans h'))
    exact siftDown_swap hw hright (.right i) ha hr
  · exact siftDown_stop hw (smallest_eq_self (hli.trans hla) (not_lessAt_of_getElem? ha hra))

end Sys2Proof.Machine

/-! ### The orders of an instance -/

namespace Sys2Proof.Machine

/-- An order that compares ranks in a linear order is a strict weak one (40_priority_queue.md
R100). -/
theorem strictWeak_of_rank {α : Type} [LinearOrder α] {less : Elem → Elem → Bool} (rank : Elem → α)
    (hless : ∀ a b, less a b = true ↔ rank a < rank b) : StrictWeak less where
  irrefl a := Bool.eq_false_iff.2 fun h => lt_irrefl _ ((hless a a).1 h)
  trans a b c hab hbc := (hless a c).2 (((hless a b).1 hab).trans ((hless b c).1 hbc))
  cotrans a b c hac := by
    rw [hless, hless]
    exact (lt_or_ge (rank a) (rank b)).imp_right fun hba => hba.trans_lt ((hless a c).1 hac)

/-- A strict weak order turned round is one. -/
theorem StrictWeak.reversed {less : Elem → Elem → Bool} (hw : StrictWeak less) :
    StrictWeak fun a b => less b a where
  irrefl := hw.irrefl
  trans a b c hab hbc := hw.trans c b a hbc hab
  cotrans a b c hac := (hw.cotrans c b a hac).symm

/-- The rank of an index under `nodeLess`: its frequency, then the index (41_tree_builder.md
R125). -/
def nodeRank (arena : List Node) (k : Nat) : ℕ ×ₗ ℕ := toLex ((nodeFreq arena k).toNat, k)

theorem nodeLess_iff (arena : List Node) (a b : Nat) :
    nodeLess arena a b = true ↔ nodeRank arena a < nodeRank arena b := by
  simp [nodeLess, nodeRank, Prod.Lex.toLex_lt_toLex]

theorem orderLess_strictWeak (o : Order) (arena : List Node) : StrictWeak (orderLess o arena) := by
  induction o with
  | node => exact strictWeak_of_rank (nodeRank arena) (nodeLess_iff arena)
  | ranked ranks => exact strictWeak_of_rank (rankOf ranks) fun _ _ => decide_eq_true_iff
  | reversed o ih => exact ih.reversed
  | caller k => exact strictWeak_of_rank (Config.callerRank k) fun _ _ => decide_eq_true_iff

theorem less_strictWeak (s : State) (q : QueueParams) : StrictWeak (s.less q) :=
  orderLess_strictWeak q.order s.arena

/-- No two indices have one rank. -/
theorem nodeLess_total (arena : List Node) {a b : Nat} (hne : a ≠ b) :
    nodeLess arena a b = true ∨ nodeLess arena b a = true := by
  rw [nodeLess_iff, nodeLess_iff]
  exact lt_or_gt_of_ne fun h => hne (congrArg (fun x => (ofLex x).2) h)

/-- Settles O36: every order but a reversed one compares ranks. -/
theorem instanceOrdersAreStrictWeakOrders : Obligations.InstanceOrdersAreStrictWeakOrders :=
  ⟨orderLess_strictWeak, fun arena _ _ => nodeLess_total arena⟩

end Sys2Proof.Machine

/-! ### What each operation of the PriorityQueue does, run stand-alone -/

namespace Sys2Proof.Machine

/-- Settles O27: the two cases of PQ.INSERT. -/
theorem pqInsertAppendsAndSiftsUp : Obligations.PqInsertAppendsAndSiftsUp := by
  refine fun s => ⟨fun hroom => ?_, fun hfull => ?_⟩
  · obtain ⟨_, hr⟩ := (pqInsert_cases s.params.queue s).resolve_left fun h => hroom h.1
    exact congrArg (unitOutcome spoilNothing) hr
  · obtain ⟨_, hr⟩ := (pqInsert_cases s.params.queue s).resolve_right fun h => h.1 hfull
    exact congrArg (unitOutcome spoilNothing) hr

theorem exec_pqExtractMin_cons {s : State} {r : Elem} {l : List Elem} (hs : s.heap = r :: l) :
    exec .pqExtractMin s = .next { s with
      pqRes := r
      heap := heapExtract (s.less s.params.queue) (r :: l)
      unitErr := none } := by
  rcases pqExtractMin_cases s.params.queue s with ⟨hnil, _⟩ | ⟨r', l', hcons, hr⟩
  · exact absurd (hs.symm.trans hnil) (List.cons_ne_nil r l)
  · obtain ⟨rfl, rfl⟩ := List.cons_eq_cons.1 (hcons.symm.trans hs)
    rw [hcons] at hr
    exact congrArg (unitOutcome spoilNothing) hr

/-- Settles O28: the shapes of the queue that an extraction meets. -/
theorem pqExtractMinReturnsTheRoot : Obligations.PqExtractMinReturnsTheRoot := by
  refine ⟨fun s r hs => exec_pqExtractMin_cons hs, fun s r m v hs => ?_, fun s hs => ?_⟩
  · rw [← heapExtract_more _ r]
    exact exec_pqExtractMin_cons hs
  · rcases pqExtractMin_cases s.params.queue s with ⟨_, hr⟩ | ⟨r, l, hcons, _⟩
    · exact congrArg (unitOutcome spoilNothing) hr
    · exact absurd (hcons.symm.trans hs) (List.cons_ne_nil r l)

/-- PQ.BUILD's loop as a fold over the indices, downwards (40_priority_queue.md R107). -/
theorem heapify_eq_foldl (less : Elem → Elem → Bool) (k : Nat) (h : List Elem) :
    heapify less k h = (List.range k).reverse.foldl (siftDown less) h := by
  induction k generalizing h with
  | zero => rfl
  | succ k ih =>
    rw [heapify, ih, List.range_succ, List.reverse_append]
    rfl

/-- Settles O29: the two cases of PQ.BUILD, and its loop written as a fold. -/
theorem pqBuildReplacesTheContent : Obligations.PqBuildReplacesTheContent := by
  refine fun s => ⟨fun hfits => ?_, fun hmany => ?_⟩
  · obtain ⟨_, hr⟩ := (pqBuild_cases s.params.queue s).resolve_left fun h => by omega
    rw [← heapify_eq_foldl]
    exact congrArg (unitOutcome spoilNothing) hr
  · obtain ⟨_, hr⟩ := (pqBuild_cases s.params.queue s).resolve_right fun h => by omega
    exact congrArg (unitOutcome spoilNothing) hr

/-- Settles O30: the three cases of PQ.DECREASEKEY. -/
theorem pqDecreaseKeyReplacesAndSiftsUp : Obligations.PqDecreaseKeyReplacesAndSiftsUp := by
  refine ⟨fun s old hold hless => ?_, fun s hrange => ?_, fun s old hold hless => ?_⟩
  · rcases pqDecreaseKey_cases s.params.queue s with ⟨hnone, _⟩ | ⟨_, hold', hno, _⟩ | ⟨_, _, _, hr⟩
    · simp [hold] at hnone
    · obtain rfl := Option.some.inj (hold.symm.trans hold')
      exact absurd (hno.symm.trans hless) Bool.false_ne_true
    · exact congrArg (unitOutcome spoilNothing) hr
  · have hnone : s.heap[s.pqArgi]? = none := List.getElem?_eq_none hrange
    rcases pqDecreaseKey_cases s.params.queue s with ⟨_, hr⟩ | ⟨_, hold, _⟩ | ⟨_, hold, _⟩
    · exact congrArg (unitOutcome spoilNothing) hr
    · simp [hnone] at hold
    · simp [hnone] at hold
  · rcases pqDecreaseKey_cases s.params.queue s with
      ⟨hnone, _⟩ | ⟨_, _, _, hr⟩ | ⟨_, hold', hyes, _⟩
    · simp [hold] at hnone
    · exact congrArg (unitOutcome spoilNothing) hr
    · obtain rfl := Option.some.inj (hold.symm.trans hold')
      exact absurd (hless.symm.trans hyes) Bool.false_ne_true

/-- The next state of a queue operation that completes (40_priority_queue.md R105 to R108). -/
inductive QueueDone (s : State) : Instr → State → Prop where
  | insert : QueueDone s .pqInsert { s with
      heap := heapInsert (s.less s.params.queue) s.heap s.pqArgv
      unitErr := none }
  | extract (r : Elem) (l : List Elem) (hs : s.heap = r :: l) : QueueDone s .pqExtractMin { s with
      pqRes := r
      heap := heapExtract (s.less s.params.queue) s.heap
      unitErr := none }
  | build : QueueDone s .pqBuild { s with
      heap := heapBuild (s.less s.params.queue) s.pqItems
      unitErr := none }
  | decrease (old : Elem) (hold : s.heap[s.pqArgi]? = some old)
      (hless : s.less s.params.queue s.pqArgv old = true) : QueueDone s .pqDecreaseKey { s with
      heap := heapDecrease (s.less s.params.queue) s.heap s.pqArgi s.pqArgv
      unitErr := none }

theorem QueueDone.unitErr {s t : State} {i : Instr} (h : QueueDone s i t) : t.unitErr = none := by
  cases h <;> rfl

section Ends

variable (s : State)

theorem pqInsert_ends : (pqInsert s.params.queue s).Ends
    (fun u => QueueDone s .pqInsert (u.setResult none)) (· = s) := by
  rcases pqInsert_cases s.params.queue s with ⟨_, hr⟩ | ⟨_, hr⟩ <;> rw [hr]
  · exact rfl
  · exact .insert

theorem pqExtractMin_ends : (pqExtractMin s.params.queue s).Ends
    (fun u => QueueDone s .pqExtractMin (u.setResult none)) (· = s) := by
  rcases pqExtractMin_cases s.params.queue s with ⟨_, hr⟩ | ⟨r, l, hs, hr⟩ <;> rw [hr]
  · exact rfl
  · exact .extract r l hs

theorem pqBuild_ends : (pqBuild s.params.queue s).Ends
    (fun u => QueueDone s .pqBuild (u.setResult none)) (· = s) := by
  rcases pqBuild_cases s.params.queue s with ⟨_, hr⟩ | ⟨_, hr⟩ <;> rw [hr]
  · exact rfl
  · exact .build

theorem pqDecreaseKey_ends : (pqDecreaseKey s.params.queue s).Ends
    (fun u => QueueDone s .pqDecreaseKey (u.setResult none)) (· = s) := by
  rcases pqDecreaseKey_cases s.params.queue s with
    ⟨_, hr⟩ | ⟨_, _, _, hr⟩ | ⟨old, hold, hless, hr⟩ <;> rw [hr]
  · exact rfl
  · exact rfl
  · exact .decrease old hold hless

end Ends

theorem isQueueOp_iff {i : Instr} : isQueueOp i = true ↔
    i = .pqInsert ∨ i = .pqExtractMin ∨ i = .pqBuild ∨ i = .pqDecreaseKey := by
  simp [isQueueOp, or_assoc]

/-- Everything a queue operation run stand-alone can do: fail with its error in the result register
alone (40_priority_queue.md R109), or complete. -/
theorem exec_queueOp_next {i : Instr} {s t : State} (hi : isQueueOp i = true)
    (h : exec i s = .next t) : (∃ e, t = s.setResult (some e)) ∨ QueueDone s i t := by
  have ended {r : Res} (hr : r.Ends (fun u => QueueDone s i (u.setResult none)) (· = s))
      (h : unitOutcome spoilNothing r = .next t) :
      (∃ e, t = s.setResult (some e)) ∨ QueueDone s i t :=
    unitOutcome_keeps (P := fun t => (∃ e, t = s.setResult (some e)) ∨ QueueDone s i t) hr
      (fun _ hu => .inr hu) (fun e u hu => .inl ⟨e, by rw [hu]; rfl⟩) h
  rcases isQueueOp_iff.1 hi with rfl | rfl | rfl | rfl
  · exact ended (pqInsert_ends s) h
  · exact ended (pqExtractMin_ends s) h
  · exact ended (pqBuild_ends s) h
  · exact ended (pqDecreaseKey_ends s) h

theorem queueDone_of_no_error {i : Instr} {s t : State} (hi : isQueueOp i = true)
    (h : exec i s = .next t) (hnone : t.unitErr = none) : QueueDone s i t := by
  rcases exec_queueOp_next hi h with ⟨e, rfl⟩ | hd
  · simp at hnone
  · exact hd

/-- Settles O31: a queue operation that completes has no error. -/
theorem aFailingQueueOperationChangesNothing :
    Obligations.AFailingQueueOperationChangesNothing := by
  intro i s t hi h herr
  rcases exec_queueOp_next hi h with ⟨e, rfl⟩ | hd
  · rfl
  · exact absurd hd.unitErr herr

/-- A completed queue operation leaves a heap, by the rule for its sift. -/
theorem QueueDone.heapOrdered {s t : State} {i : Instr} (hd : QueueDone s i t)
    (hh : HeapOrdered (s.less s.params.queue) s.heap) :
    HeapOrdered (t.less t.params.queue) t.heap := by
  have hw := less_strictWeak s s.params.queue
  cases hd with
  | insert => exact heapInsert_heapOrdered hw hh s.pqArgv
  | extract => exact heapExtract_heapOrdered hw hh
  | build => exact heapBuild_heapOrdered hw s.pqItems
  | decrease old hold hless =>
    refine heapDecrease_heapOrdered hw hh fun old' hold' => ?_
    obtain rfl : old = old' := Option.some.inj (hold.symm.trans hold')
    exact hless

/-- Settles O32: no operation writes `less`; one that fails leaves HEAP as it was, and one that
completes has restored the order. -/
theorem queueOperationsKeepTheHeapInvariant : Obligations.QueueOperationsKeepTheHeapInvariant := by
  refine ⟨fun i s t hi hh h => ?_, fun p less => ⟨rfl, heapOrdered_nil⟩⟩
  rcases exec_queueOp_next hi h with ⟨e, rfl⟩ | hd
  · exact hh
  · exact hd.heapOrdered hh

/-- Settles O33: the result is the root, which is a minimum. -/
theorem extractMinReturnsAMinimum : Obligations.ExtractMinReturnsAMinimum := by
  intro s t hh h hnone
  cases queueDone_of_no_error rfl h hnone with
  | extract r l hs =>
    rw [hs] at hh ⊢
    exact ⟨List.mem_cons_self, hh.root_is_minimum (less_strictWeak s _)⟩

/-- Settles O34: the sifts permute the elements. -/
theorem queueOperationsConserveTheElements : Obligations.QueueOperationsConserveTheElements := by
  refine ⟨fun s t h hnone => ?_, fun s t h hnone => ?_, fun s t h hnone => ?_,
    fun s t h hnone => ?_⟩
  · cases queueDone_of_no_error rfl h hnone with
    | insert => exact (heapInsert_perm _ _ _).symm
  · cases queueDone_of_no_error rfl h hnone with
    | extract r l hs =>
      rw [hs]
      exact (heapExtract_perm _ r l).symm.cons r
  · cases queueDone_of_no_error rfl h hnone with
    | build => exact (heapBuild_perm _ _).symm
  · cases queueDone_of_no_error rfl h hnone with
    | decrease => exact (heapDecrease_perm _ _ _ _).symm

end Sys2Proof.Machine

namespace Sys2Proof.Machine

/-! ### FC.COUNT -/

/-- Counting a text adds to every counter the occurrences of its symbol, modulo 2^32. -/
theorem tableGet_foldl_countByte (text : List Byte) (freq : Table Word) (b : Byte) :
    tableGet (text.foldl countByte freq) b = tableGet freq b + BitVec.ofNat 32 (text.count b) := by
  induction text generalizing freq with
  | nil => simp
  | cons a text ih =>
    rw [List.foldl_cons, ih, countByte, tableGet_tableSet, List.count_cons]
    by_cases hab : b = a
    · subst hab
      simp only [if_pos, beq_self_eq_true, BitVec.ofNat_add]
      ac_rfl
    · rw [if_neg hab, if_neg (by simpa using Ne.symm hab), Nat.add_zero]

theorem countText_toNat {text : List Byte} (h : text.length < 2 ^ 32) (b : Byte) :
    (tableGet (countText text) b).toNat = text.count b := by
  rw [countText, tableGet_foldl_countByte, tableGet_constTable, BitVec.zero_add, BitVec.toNat_ofNat,
    Nat.mod_eq_of_lt (List.count_le_length.trans_lt h)]

/-- FC.COUNT of a legal length counts IBUF[0 .. ILEN) (41_tree_builder.md R120; 20_memory.md
R60). -/
theorem fcCount_of_legal {s : State} (h : s.ilen.toNat ≤ s.params.ibufCap.toNat) :
    fcCount s = .done { s with freq := countText (s.ibuf.readBytes .ibuf 0 s.ilen.toNat) } := by
  rw [fcCount, State.inputTooLong, if_neg (by simpa using h), State.inputText, Nat.min_eq_left h,
    State.ibufBytes]

/-- Settles O37: no counter wraps, for a text has fewer than 2^32 bytes. -/
theorem fcCountCountsTheText : Obligations.FcCountCountsTheText := by
  intro s h
  refine ⟨_, congrArg (unitOutcome _) (fcCount_of_legal h), rfl, fun b => countText_toNat ?_ b⟩
  rw [readBytes_length]
  exact s.ilen.isLt

end Sys2Proof.Machine

namespace Sys2Proof.Machine

/-! ### The two extractions of a merge -/

/-- Two extractions from the queue `h` take first `x` and then `y` (40_priority_queue.md R106). -/
structure FirstTwo (less : Elem → Elem → Bool) (h : List Elem) (x y : Elem) : Prop where
  first : ∃ l, h = x :: l
  second : ∃ l, heapExtract less h = y :: l

namespace FirstTwo

variable {less : Elem → Elem → Bool} {h : List Elem} {x y : Elem}

theorem exists_of_length (less : Elem → Elem → Bool) (hsize : 1 < h.length) :
    ∃ x y, FirstTwo less h x y := by
  obtain ⟨x, l, hx⟩ := List.exists_cons_of_length_pos (Nat.zero_lt_of_lt hsize)
  have hleft : 0 < (heapExtract less h).length := by
    rw [heapExtract_length]
    omega
  obtain ⟨y, l', hy⟩ := List.exists_cons_of_length_pos hleft
  exact ⟨x, y, ⟨l, hx⟩, ⟨l', hy⟩⟩

/-- The elements are the first taken and what its extraction leaves. -/
theorem perm_first (ht : FirstTwo less h x y) : (x :: heapExtract less h).Perm h := by
  obtain ⟨l, rfl⟩ := ht.first
  exact (heapExtract_perm less x l).cons x

/-- The elements are the two taken and what both extractions leave. -/
theorem perm (ht : FirstTwo less h x y) :
    (x :: y :: heapExtract less (heapExtract less h)).Perm h := by
  obtain ⟨l, hl⟩ := ht.second
  have hrest : (y :: heapExtract less (y :: l)).Perm (y :: l) := (heapExtract_perm less y l).cons y
  rw [← hl] at hrest
  exact (hrest.cons x).trans ht.perm_first

theorem ne (ht : FirstTwo less h x y) (hd : h.Nodup) : x ≠ y := by
  rintro rfl
  exact (ht.perm.nodup_iff.2 hd).notMem List.mem_cons_self

/-- The first taken from a heap is a minimum (40_priority_queue.md R111). -/
theorem not_less_first (ht : FirstTwo less h x y) (hw : StrictWeak less)
    (hh : HeapOrdered less h) : ∀ z ∈ h, less z x = false := by
  obtain ⟨l, rfl⟩ := ht.first
  exact hh.root_is_minimum hw

/-- The second is a minimum of what the first leaves. -/
theorem not_less_second (ht : FirstTwo less h x y) (hw : StrictWeak less)
    (hh : HeapOrdered less h) : ∀ z ∈ h, z ≠ x → less z y = false := by
  intro z hz hne
  have hheap := heapExtract_heapOrdered hw hh
  have hleft := (List.mem_cons.1 (ht.perm_first.mem_iff.2 hz)).resolve_left hne
  obtain ⟨l, hl⟩ := ht.second
  rw [hl] at hheap hleft
  exact hheap.root_is_minimum hw z hleft

end FirstTwo

/-! ### The comparison of records in a longer ARENA -/

theorem nodeFreq_append {arena : List Node} (more : List Node) {k : Nat} (hk : k < arena.length) :
    nodeFreq (arena ++ more) k = nodeFreq arena k := by
  rw [nodeFreq, nodeFreq, List.getElem?_append_left hk]

/-- A record that is added does not change the order of those before it. -/
theorem nodeLess_append {arena : List Node} (more : List Node) {a b : Nat} (ha : a < arena.length)
    (hb : b < arena.length) : nodeLess (arena ++ more) a b = nodeLess arena a b := by
  rw [nodeLess, nodeLess, nodeFreq_append more ha, nodeFreq_append more hb]

theorem HeapOrdered.congr {less less' : Elem → Elem → Bool} {h : List Elem}
    (hh : HeapOrdered less h) (heq : ∀ a ∈ h, ∀ b ∈ h, less' a b = less a b) :
    HeapOrdered less' h := by
  intro i a b hi ha hb
  rw [heq a (List.mem_of_getElem? ha) b (List.mem_of_getElem? hb)]
  exact hh i a b hi ha hb

/-- A heap of records stays one when ARENA grows, and the new record's index can be queued
(41_tree_builder.md R125, R126). -/
theorem heapInsert_append_heapOrdered {arena : List Node} {h : List Elem}
    (hh : HeapOrdered (nodeLess arena) h) (hsmall : ∀ k ∈ h, k < arena.length) (x : Node) :
    HeapOrdered (nodeLess (arena ++ [x]))
      (heapInsert (nodeLess (arena ++ [x])) h arena.length) :=
  heapInsert_heapOrdered (orderLess_strictWeak .node _)
    (hh.congr fun a ha b hb => nodeLess_append [x] (hsmall a ha) (hsmall b hb)) arena.length

/-! ### One merge -/

/-- The Internal record of two nodes, the left one first (41_tree_builder.md R126, R127). -/
def mergedNode (arena : List Node) (x y : Elem) : Node :=
  .internal (addFreq (nodeFreq arena x) (nodeFreq arena y)) (BitVec.ofNat 9 x) (BitVec.ofNat 9 y)

/-- The queue after a merge: two elements taken, the new record's index inserted. -/
def mergedHeap (s : State) (x y : Elem) : List Elem :=
  heapInsert (nodeLess (s.arena ++ [mergedNode s.arena x y]))
    (heapExtract (nodeLess s.arena) (heapExtract (nodeLess s.arena) s.heap)) s.arena.length

theorem pqExtractMin_cons {q : QueueParams} {s : State} {r : Elem} (hs : ∃ l, s.heap = r :: l) :
    pqExtractMin q s = .done { s with pqRes := r, heap := heapExtract (s.less q) s.heap } := by
  obtain ⟨l, hl⟩ := hs
  rcases pqExtractMin_cases q s with ⟨hnil, _⟩ | ⟨r', l', hcons, hr⟩
  · simp [hl] at hnil
  · obtain ⟨rfl, _⟩ := List.cons_eq_cons.1 (hl.symm.trans hcons)
    exact hr

theorem addNode_of_room (x : Node) {s : State} (h : s.heap.length < 256) :
    addNode x s = .done { s with
      arena := s.arena ++ [x]
      pqArgv := s.arena.length
      heap := heapInsert (nodeLess (s.arena ++ [x])) s.heap s.arena.length } := by
  obtain ⟨_, hr⟩ := (addNode_cases x s).resolve_left fun hfull => h.ne hfull.1
  exact hr

theorem mergeOnce_eq {s : State} {x y : Elem} (ht : FirstTwo (nodeLess s.arena) s.heap x y)
    (hroom : s.heap.length ≤ 256) :
    mergeOnce s = .done { s with
      arena := s.arena ++ [mergedNode s.arena x y]
      pqArgv := s.arena.length
      pqRes := y
      heap := mergedHeap s x y } := by
  have hrest : (heapExtract (nodeLess s.arena)
      (heapExtract (nodeLess s.arena) s.heap)).length < 256 := by
    have hlen := ht.perm.length_eq
    rw [List.length_cons, List.length_cons] at hlen
    omega
  rw [mergeOnce, pqExtractMin_cons ht.first, done_bind, pqExtractMin_cons ht.second, done_bind]
  exact addNode_of_room _ hrest

theorem mergedHeap_perm {s : State} {x y : Elem} (ht : FirstTwo (nodeLess s.arena) s.heap x y) :
    (x :: y :: mergedHeap s x y).Perm (s.arena.length :: s.heap) :=
  calc List.Perm (x :: y :: mergedHeap s x y) (x :: y :: s.arena.length ::
        heapExtract (nodeLess s.arena) (heapExtract (nodeLess s.arena) s.heap)) :=
        ((heapInsert_perm _ _ _).cons y).cons x
    List.Perm _ (s.arena.length :: x :: y ::
        heapExtract (nodeLess s.arena) (heapExtract (nodeLess s.arena) s.heap)) :=
        List.perm_middle (l₁ := [x, y])
    List.Perm _ (s.arena.length :: s.heap) := ht.perm.cons _

theorem mergedHeap_heapOrdered {s : State} {x y : Elem}
    (ht : FirstTwo (nodeLess s.arena) s.heap x y) (hh : HeapOrdered (nodeLess s.arena) s.heap)
    (hsmall : ∀ k ∈ s.heap, k < s.arena.length) :
    HeapOrdered (nodeLess (s.arena ++ [mergedNode s.arena x y])) (mergedHeap s x y) := by
  have hw : StrictWeak (nodeLess s.arena) := orderLess_strictWeak .node _
  refine heapInsert_append_heapOrdered
    (heapExtract_heapOrdered hw (heapExtract_heapOrdered hw hh)) (fun k hk => hsmall k ?_) _
  exact ht.perm.subset (List.mem_cons_of_mem x (List.mem_cons_of_mem y hk))

/-- Settles O41: each extraction takes a minimum, which under the total `nodeLess` is less than
every other element. -/
theorem aMergeTakesTheTwoLeastNodes : Obligations.AMergeTakesTheTwoLeastNodes := by
  intro s hh hd hsize hroom hsmall _
  obtain ⟨x, y, ht⟩ := FirstTwo.exists_of_length (nodeLess s.arena) hsize
  have hw : StrictWeak (nodeLess s.arena) := orderLess_strictWeak .node _
  have less_of_not {a b : Elem} (hne : a ≠ b) (hba : nodeLess s.arena b a = false) :
      nodeLess s.arena a b = true :=
    (nodeLess_total s.arena hne).resolve_right (Bool.eq_false_iff.1 hba)
  have hx : x ∈ s.heap := ht.perm.subset (by simp)
  have hy : y ∈ s.heap := ht.perm.subset (by simp)
  have hne := ht.ne hd
  have hperm := mergedHeap_perm ht
  refine ⟨_, x, y, mergeOnce_eq ht hroom, hx, hy, hne, rfl,
    less_of_not hne (ht.not_less_first hw hh y hy),
    fun z hz hzx hzy => less_of_not hzy.symm (ht.not_less_second hw hh z hz hzx), hperm, ?_,
    mergedHeap_heapOrdered ht hh hsmall⟩
  simpa using hperm.length_eq

end Sys2Proof.Machine

namespace Sys2Proof.Machine

/-! ### The forest in ARENA while TB.BUILD runs -/

theorem completes_iff {P : State → Prop} {r : Res} : r.Completes P ↔ ∃ t, r = .done t ∧ P t := by
  cases r <;> simp [Res.Completes]

/-- The leaf of a symbol and its count (41_tree_builder.md R124). -/
def leafOf (x : Byte × Word) : Node := .leaf x.1 x.2

/-- Record `k` is Internal, its children stand below it and differ, and its frequency is their sum
(41_tree_builder.md R126, R131). -/
def SumAt (arena : List Node) (k : Nat) : Prop :=
  ∃ f l r, arena[k]? = some (.internal f l r) ∧ l.toNat < k ∧ r.toNat < k ∧ l ≠ r ∧
    f = addFreq (nodeFreq arena l.toNat) (nodeFreq arena r.toNat)

theorem SumAt.append {arena : List Node} {k : Nat} (more : List Node) (h : SumAt arena k) :
    SumAt (arena ++ more) k := by
  obtain ⟨f, l, r, hk, hl, hr, hne, hf⟩ := h
  have hlt := (List.getElem?_eq_some_iff.1 hk).1
  refine ⟨f, l, r, (List.getElem?_append_left hlt).trans hk, hl, hr, hne, ?_⟩
  rw [nodeFreq_append more (hl.trans hlt), nodeFreq_append more (hr.trans hlt), hf]

/-- A record index fits its 9 bits. -/
theorem toNat_index {k : Nat} (h : k < 512) : (BitVec.ofNat 9 k).toNat = k :=
  Nat.mod_eq_of_lt h

/-- The record that a merge adds. -/
theorem sumAt_mergedNode {arena : List Node} {x y : Elem} (hx : x < arena.length)
    (hy : y < arena.length) (hne : x ≠ y) (hlen : arena.length ≤ 512) :
    SumAt (arena ++ [mergedNode arena x y]) arena.length := by
  have hx9 := toNat_index (hx.trans_le hlen)
  have hy9 := toNat_index (hy.trans_le hlen)
  refine ⟨_, _, _, List.getElem?_concat_length, ?_, ?_, fun h => hne ?_, ?_⟩
  · rwa [hx9]
  · rwa [hy9]
  · rw [← hx9, h, hy9]
  · rw [hx9, hy9, nodeFreq_append _ hx, nodeFreq_append _ hy]

/-- ARENA is a forest over the leaves of `L` with the given roots: the leaves stand first, every
later record is Internal, and every record is a root or the child of one record, once
(41_tree_builder.md R131). Each merge adds a record and takes one from the number of roots. -/
structure Forest (L : List (Byte × Word)) (arena : List Node) (roots : List Elem) : Prop where
  few : L.length ≤ 256
  leaves : arena.take L.length = L.map leafOf
  sums : ∀ k, L.length ≤ k → k < arena.length → SumAt arena k
  parents : (arena.flatMap childrenOf ++ roots).Perm (List.range arena.length)
  size : arena.length + roots.length = 2 * L.length

namespace Forest

variable {L : List (Byte × Word)} {arena : List Node} {roots : List Elem}

theorem length_le (h : Forest L arena roots) : arena.length ≤ 512 := by
  have hfew := h.few
  have hsize := h.size
  omega

theorem length_leaves_le (h : Forest L arena roots) : L.length ≤ arena.length := by
  simpa using congrArg List.length h.leaves

theorem root_lt (h : Forest L arena roots) {k : Elem} (hk : k ∈ roots) : k < arena.length :=
  List.mem_range.1 (h.parents.subset (List.mem_append_right _ hk))

theorem roots_nodup (h : Forest L arena roots) : roots.Nodup :=
  (h.parents.nodup_iff.2 List.nodup_range).of_append_right

theorem leaf_at (h : Forest L arena roots) {k : Nat} (hk : k < L.length) :
    ∃ x, arena[k]? = some (leafOf x) := by
  refine ⟨L[k], ?_⟩
  rw [← List.getElem?_take_of_lt hk, h.leaves, List.getElem?_map, List.getElem?_eq_getElem hk,
    Option.map_some]

/-- Every child stands below its parent. -/
theorem child_lt (h : Forest L arena roots) {k c : Nat} {x : Node} (hx : arena[k]? = some x)
    (hc : c ∈ childrenOf x) : c < k := by
  rcases Nat.lt_or_ge k L.length with hk | hk
  · obtain ⟨e, he⟩ := h.leaf_at hk
    obtain rfl := Option.some.inj (hx.symm.trans he)
    cases hc
  · obtain ⟨f, l, r, hk, hl, hr, -⟩ := h.sums k hk (List.getElem?_eq_some_iff.1 hx).1
    obtain rfl := Option.some.inj (hx.symm.trans hk)
    rcases List.mem_pair.1 hc with rfl | rfl
    · exact hl
    · exact hr

/-- The last record is no record's child, so it is a root. -/
theorem last_mem_roots (h : Forest L arena roots) (hpos : 0 < arena.length) :
    arena.length - 1 ∈ roots := by
  have hlast : arena.length - 1 ∈ List.range arena.length := List.mem_range.2 (by omega)
  refine (List.mem_append.1 (h.parents.mem_iff.2 hlast)).resolve_left fun hchild => ?_
  obtain ⟨x, hx, hc⟩ := List.mem_flatMap.1 hchild
  obtain ⟨k, hk⟩ := List.mem_iff_getElem?.1 hx
  have hlt := h.child_lt hk hc
  have := (List.getElem?_eq_some_iff.1 hk).1
  omega

/-- When the merges have left at most one root, it is the last record. -/
theorem roots_eq_last (h : Forest L arena roots) (hpos : 0 < arena.length)
    (hone : roots.length ≤ 1) : roots = [arena.length - 1] := by
  have hlast := h.last_mem_roots hpos
  have hlen := Nat.le_antisymm hone (List.length_pos_of_mem hlast)
  obtain ⟨r, rfl⟩ := List.length_eq_one_iff.1 hlen
  rw [List.mem_singleton.1 hlast]

/-- The forest before the merges: no record but the leaves, each a root. -/
theorem of_leaves (hfew : L.length ≤ 256) (hroots : roots.Perm (List.range L.length)) :
    Forest L (L.map leafOf) roots where
  few := hfew
  leaves := List.take_of_length_le (List.length_map leafOf).le
  sums k hk hlt := absurd hlt (by simpa using hk)
  parents := by
    have hnone : (L.map leafOf).flatMap childrenOf = [] :=
      List.flatMap_eq_nil_iff.2 fun x hx => by
        obtain ⟨e, _, rfl⟩ := List.mem_map.1 hx
        rfl
    rwa [hnone, List.length_map]
  size := by
    rw [hroots.length_eq, List.length_map, List.length_range]
    omega

/-- A merge of two roots makes both children of the new record, which is a root. -/
theorem merge (h : Forest L arena roots) {x y : Elem} {rest : List Elem}
    (hperm : (x :: y :: rest).Perm (arena.length :: roots)) (hx : x ∈ roots) (hy : y ∈ roots)
    (hne : x ≠ y) : Forest L (arena ++ [mergedNode arena x y]) rest := by
  have hlen := h.length_le
  have hsum := sumAt_mergedNode (h.root_lt hx) (h.root_lt hy) hne hlen
  refine ⟨h.few, (List.take_append_of_le_length h.length_leaves_le).trans h.leaves,
    fun k hk hlt => ?_, ?_, ?_⟩
  · rw [List.length_append, List.length_singleton] at hlt
    rcases Nat.lt_succ_iff_lt_or_eq.1 hlt with hlt | rfl
    · exact (h.sums k hk hlt).append _
    · exact hsum
  · have hchildren : childrenOf (mergedNode arena x y) = [x, y] := by
      rw [mergedNode, childrenOf, toNat_index ((h.root_lt hx).trans_le hlen),
        toNat_index ((h.root_lt hy).trans_le hlen)]
    rw [List.flatMap_append, List.flatMap_singleton, hchildren, List.append_assoc,
      List.length_append, List.length_singleton, List.range_succ]
    calc List.Perm (arena.flatMap childrenOf ++ (x :: y :: rest))
          (arena.flatMap childrenOf ++ arena.length :: roots) := hperm.append_left _
      List.Perm _ (arena.length :: (arena.flatMap childrenOf ++ roots)) := List.perm_middle
      List.Perm _ (arena.length :: List.range arena.length) := h.parents.cons _
      List.Perm _ (List.range arena.length ++ [arena.length]) :=
        (List.perm_append_singleton _ _).symm
  · have hsize := h.size
    have hcount := hperm.length_eq
    simp only [List.length_cons, List.length_append, List.length_nil] at hcount ⊢
    omega

end Forest

/-! ### The parts of TB.BUILD on the forest -/

/-- The leaves of `L` and nothing else: what TB.BUILD's first loop has after the symbols of `L`
(41_tree_builder.md R123, R124). -/
structure Planted (L : List (Byte × Word)) (s : State) : Prop where
  arena : s.arena = L.map leafOf
  heap : s.heap.Perm (List.range L.length)

theorem addNode_planted {L : List (Byte × Word)} {s : State} (x : Byte × Word) (h : Planted L s)
    (hroom : L.length < 256) : (addNode (leafOf x) s).Completes (Planted (L ++ [x])) := by
  obtain ⟨harena, hheap⟩ := h
  have hlen : s.arena.length = L.length := by rw [harena, List.length_map]
  rw [addNode_of_room _ (by rw [hheap.length_eq, List.length_range]; exact hroom)]
  refine ⟨by simp [harena], (heapInsert_perm _ _ _).trans ?_⟩
  rw [hlen, List.length_append, List.length_singleton, List.range_succ]
  exact (hheap.cons _).trans (List.perm_append_singleton _ _).symm

theorem forEach_addLeaf_planted (xs : List (Byte × Word)) {L : List (Byte × Word)} {s : State}
    (h : Planted L s) (hroom : L.length + xs.length ≤ 256) :
    (forEach addLeaf xs s).Completes (Planted (L ++ xs.filter fun x => x.2 != 0#32)) := by
  induction xs generalizing L s with
  | nil => simpa [forEach, Res.Completes] using h
  | cons x xs ih =>
    rw [List.length_cons] at hroom
    rw [forEach, addLeaf]
    by_cases hzero : x.2 = 0#32
    · rw [if_pos hzero, done_bind, List.filter_cons_of_neg (by simpa using hzero)]
      exact ih h (by omega)
    · rw [if_neg hzero, List.filter_cons_of_pos (by simpa using hzero), List.append_cons]
      refine completes_bind (addNode_planted x h (by omega)) fun t ht => ih ht ?_
      rw [List.length_append, List.length_singleton]
      omega

/-- A merge takes two roots of the forest (41_tree_builder.md R126, R127). -/
theorem mergeOnce_forest {L : List (Byte × Word)} {s : State} (h : Forest L s.arena s.heap)
    (hsize : 1 < s.heap.length) :
    (mergeOnce s).Completes fun t =>
      Forest L t.arena t.heap ∧ t.heap.length + 1 = s.heap.length := by
  obtain ⟨x, y, ht⟩ := FirstTwo.exists_of_length (nodeLess s.arena) hsize
  have hroom : s.heap.length ≤ 256 := by
    have hfew := h.few
    have hsize := h.size
    have hleaves := h.length_leaves_le
    omega
  have hperm := mergedHeap_perm ht
  rw [mergeOnce_eq ht hroom]
  refine ⟨h.merge hperm (ht.perm.subset (by simp)) (ht.perm.subset (by simp))
    (ht.ne h.roots_nodup), ?_⟩
  simpa using hperm.length_eq

theorem mergeLoop_forest {L : List (Byte × Word)} (n : Nat) {s : State}
    (h : Forest L s.arena s.heap) (hn : s.heap.length ≤ n + 1) :
    (mergeLoop n s).Completes fun t => Forest L t.arena t.heap ∧ t.heap.length ≤ 1 := by
  induction n generalizing s with
  | zero => exact ⟨h, hn⟩
  | succ n ih =>
    rw [mergeLoop]
    split
    next hsize =>
      exact completes_bind (mergeOnce_forest h hsize) fun t ⟨ht, hlen⟩ => ih ht (by omega)
    next hsize => exact ⟨h, by omega⟩

/-- TB.BUILD has left the queue empty and a forest whose only root, if any, is ROOT
(41_tree_builder.md R128 to R131). -/
structure Built (L : List (Byte × Word)) (s : State) : Prop where
  heap : s.heap = []
  forest : Forest L s.arena (s.root.toList.map BitVec.toNat)

theorem takeRoot_built {L : List (Byte × Word)} {s : State} (h : Forest L s.arena s.heap)
    (hone : s.heap.length ≤ 1) (hpos : 0 < s.arena.length) : (takeRoot s).Completes (Built L) := by
  have hlast := h.roots_eq_last hpos hone
  have hindex : (BitVec.ofNat 9 (s.arena.length - 1)).toNat = s.arena.length - 1 :=
    toNat_index (by have := h.length_le; omega)
  rw [takeRoot, pqExtractMin_cons ⟨[], hlast⟩, done_bind]
  rw [hlast] at h
  refine ⟨by simp only [hlast, heapExtract_single], ?_⟩
  simpa only [Option.toList_some, List.map_singleton, hindex] using h

theorem presentCounts_length_le (freq : Table Word) : (presentCounts freq).length ≤ 256 :=
  (List.length_filter_le _ _).trans (entries_length freq).le

theorem tbBuild_built (s : State) : (tbBuild s).Completes (Built (presentCounts s.freq)) := by
  have start : Planted [] { s with arena := [], heap := [] } := ⟨rfl, .refl _⟩
  have leaves := forEach_addLeaf_planted (entries s.freq) start (by simp)
  refine completes_bind leaves fun s1 ⟨harena, hheap⟩ => ?_
  have forest : Forest (presentCounts s.freq) s1.arena s1.heap :=
    harena ▸ .of_leaves (presentCounts_length_le _) hheap
  split
  next hempty =>
    have hnil : s1.heap = [] := List.eq_nil_iff_forall_not_mem.2 fun k hk =>
      Nat.not_lt_zero k (hempty ▸ forest.root_lt hk)
    exact ⟨hnil, hnil ▸ forest⟩
  next hne =>
    have hpos : 0 < (presentCounts s.freq).length := by
      rw [harena, List.length_map] at hne
      exact Nat.pos_of_ne_zero hne
    exact completes_bind (mergeLoop_forest _ forest (Nat.le_succ _)) fun t ⟨ht, hone⟩ =>
      takeRoot_built ht hone (hpos.trans_le ht.length_leaves_le)

/-! ### TB.BUILD -/

theorem exec_tbBuild_built (s : State) :
    ∃ t, exec .tbBuild s = .next t ∧ t.unitErr = none ∧ Built (presentCounts s.freq) t := by
  obtain ⟨u, hu, hb⟩ := completes_iff.1 (tbBuild_built s)
  exact ⟨u.setResult none, congrArg (unitOutcome _) hu, rfl, hb.heap, hb.forest⟩

theorem built_of_exec {s t : State} (h : exec .tbBuild s = .next t) :
    Built (presentCounts s.freq) t := by
  obtain ⟨u, hu, -, hb⟩ := exec_tbBuild_built s
  obtain rfl := Host.Outcome.next.inj (h.symm.trans hu)
  exact hb

namespace Built

variable {L : List (Byte × Word)} {s : State}

/-- The tree of no symbol (41_tree_builder.md R129). -/
theorem eq_empty_of_nil (h : Built [] s) : s.arena.length = 0 ∧ s.root = none := by
  have hsize := h.forest.size
  simpa using hsize

theorem root_eq_last (h : Built L s) (hne : L ≠ []) :
    s.root = some (BitVec.ofNat 9 (s.arena.length - 1)) := by
  have hpos : 0 < s.arena.length :=
    (List.length_pos_of_ne_nil hne).trans_le h.forest.length_leaves_le
  obtain ⟨r, hr, hlast⟩ := List.mem_map.1 (h.forest.last_mem_roots hpos)
  rw [← hlast, BitVec.ofNat_toNat, BitVec.setWidth_eq]
  exact Option.mem_toList.1 hr

/-- `n` leaves and the `n - 1` merges that join them (41_tree_builder.md R131). -/
theorem length_eq (h : Built L s) (hne : L ≠ []) : s.arena.length = 2 * L.length - 1 := by
  have hsize := h.forest.size
  rw [h.root_eq_last hne, Option.toList_some, List.map_singleton, List.length_singleton] at hsize
  omega

end Built

/-- Settles O38: TB.BUILD completes with a forest of one root, which fixes NNODES and ROOT. -/
theorem tbBuildCompletesWithOneRoot : Obligations.TbBuildCompletesWithOneRoot := by
  intro s
  obtain ⟨t, ht, herr, hb⟩ := exec_tbBuild_built s
  have frame : t = { s with
      arena := t.arena, root := t.root, heap := t.heap, pqArgv := t.pqArgv, pqRes := t.pqRes,
      unitErr := t.unitErr } := execTbBuild_writes ht
  rw [hb.heap, herr] at frame
  refine ⟨t, ht, frame, fun hnil => ?_, fun hne => ⟨hb.length_eq hne, hb.root_eq_last hne⟩⟩
  rw [hnil] at hb
  exact hb.eq_empty_of_nil

/-- Settles O39: the leaves and the sums of the forest. -/
theorem tbBuildArenaIsAForestOfSums : Obligations.TbBuildArenaIsAForestOfSums := by
  intro s t h
  have forest := (built_of_exec h).forest
  exact ⟨forest.leaves, forest.sums⟩

/-- How often a record is the root. -/
theorem count_root (root : Option NodeIdx) {j : Nat} (hj : j < 512) :
    (root.toList.map BitVec.toNat).count j = if root = some (BitVec.ofNat 9 j) then 1 else 0 := by
  cases root with
  | none => rfl
  | some r =>
    have hindex : r = BitVec.ofNat 9 j ↔ r.toNat = j :=
      ⟨fun h => h ▸ toNat_index hj, fun h => BitVec.eq_of_toNat_eq (h.trans (toNat_index hj).symm)⟩
    simp [List.count_singleton, hindex]

/-- Settles O40: among the children of all records and ROOT every record stands once. -/
theorem everyNodeButTheRootHasOneParent : Obligations.EveryNodeButTheRootHasOneParent := by
  intro s t h j hj
  have forest := (built_of_exec h).forest
  have once : (t.arena.flatMap childrenOf).count j +
      (t.root.toList.map BitVec.toNat).count j = 1 := by
    rw [← List.count_append, forest.parents.count_eq]
    exact List.count_eq_one_of_mem List.nodup_range (List.mem_range.2 hj)
  rw [count_root t.root (hj.trans_le forest.length_le)] at once
  split at once
  next hroot =>
    rw [if_pos hroot]
    exact Nat.succ.inj once
  next hroot =>
    rw [if_neg hroot]
    exact once

end Sys2Proof.Machine

namespace Sys2Proof.Machine

/-! ### The ReverseTable's lookup -/

section RevLookup

variable {rev : List RevEntry} {c : Bits}

theorem exists_mem_of_revLookup {b : Byte} (h : revLookup rev c = some b) :
    ∃ e ∈ rev, e.bits = c ∧ e.sym = b := by
  obtain ⟨e, he, hsym⟩ := Option.map_eq_some_iff.1 h
  exact ⟨e, List.mem_of_find?_eq_some he, by simpa using List.find?_some he, hsym⟩

theorem revLookup_eq_none_iff : revLookup rev c = none ↔ ∀ e ∈ rev, e.bits ≠ c := by
  simp [revLookup]

/-- An entry is found where its bits fix its symbol. -/
theorem revLookup_of_mem {e : RevEntry} (he : e ∈ rev) (hc : e.bits = c)
    (huniq : ∀ e' ∈ rev, e'.bits = c → e'.sym = e.sym) : revLookup rev c = some e.sym := by
  cases hfound : revLookup rev c with
  | none => exact absurd hc (revLookup_eq_none_iff.1 hfound e he)
  | some b =>
    obtain ⟨e', he', hbits, rfl⟩ := exists_mem_of_revLookup hfound
    rw [huniq e' he' hbits]

end RevLookup

/-- Settles O26: a hit is an entry, a miss says that there is none. -/
theorem revLookupIsAnExactMatch : Obligations.RevLookupIsAnExactMatch := by
  intro rev c
  refine ⟨fun b => exists_mem_of_revLookup, revLookup_eq_none_iff, ?_, revLookup_eq_none_iff.2⟩
  intro huniq e he hc
  exact revLookup_of_mem he hc fun e' he' hc' => huniq e' he' e he (hc'.trans hc.symm)

/-! ### The symbols with a code, and the inverse of a CodeTable -/

theorem entries_nodup {α : Type} (t : Table α) : (entries t).Nodup :=
  List.Nodup.of_map Prod.fst (entries_symbols t ▸ symbols_nodup)

section Codes

variable {code : Table Bits}

theorem mem_presentCodes {x : Byte × Bits} :
    x ∈ presentCodes code ↔ x.2 = tableGet code x.1 ∧ x.2 ≠ [] := by
  simp [presentCodes, mem_entries]

theorem mem_revOf {es : List (Byte × Bits)} {e : RevEntry} :
    e ∈ revOf es ↔ (e.sym, e.bits) ∈ es := by
  simp only [revOf, List.mem_map]
  exact ⟨fun ⟨_, hx, he⟩ => he ▸ hx, fun h => ⟨_, h, rfl⟩⟩

theorem mem_invertedTable {e : RevEntry} :
    e ∈ invertedTable code ↔ e.bits = tableGet code e.sym ∧ e.bits ≠ [] :=
  mem_revOf.trans mem_presentCodes

/-- No two entries have the same bits, the invariant of REV (10_state.md R34). -/
def BitsDistinct (rev : List RevEntry) : Prop := (rev.map RevEntry.bits).Nodup

theorem bitsDistinct_invertedTable : BitsDistinct (invertedTable code) ↔ CodesDistinct code := by
  have hmap : (invertedTable code).map RevEntry.bits = (presentCodes code).map Prod.snd := by
    simp [invertedTable, revOf]
  have hnodup : (presentCodes code).Nodup := (entries_nodup code).filter _
  rw [BitsDistinct, hmap, List.nodup_map_iff_inj_on hnodup]
  constructor
  · intro hinj a b hab ha heq
    exact hab (congrArg Prod.fst (hinj (a, tableGet code a) (mem_presentCodes.2 ⟨rfl, ha⟩)
      (b, tableGet code b) (mem_presentCodes.2 ⟨rfl, heq ▸ ha⟩) heq))
  · rintro hdist ⟨a, c⟩ hx ⟨b, d⟩ hy rfl
    obtain ⟨hac, hne⟩ := mem_presentCodes.1 hx
    obtain ⟨hbc, -⟩ := mem_presentCodes.1 hy
    by_contra hab
    exact hdist a b (fun h => hab (h ▸ rfl)) (hac ▸ hne) (hac.symm.trans hbc)

theorem isInverse_invertedTable (h : CodesDistinct code) :
    IsInverse code (invertedTable code) := by
  intro c b
  constructor
  · intro hfound
    obtain ⟨e, he, rfl, rfl⟩ := exists_mem_of_revLookup hfound
    obtain ⟨hbits, hne⟩ := mem_invertedTable.1 he
    exact ⟨hne, hbits.symm⟩
  · rintro ⟨hne, rfl⟩
    refine revLookup_of_mem (e := ⟨tableGet code b, b⟩) (mem_invertedTable.2 ⟨rfl, hne⟩) rfl
      fun e he hbits => ?_
    by_contra hsym
    exact h b e.sym (Ne.symm hsym) hne (hbits.symm.trans (mem_invertedTable.1 he).1)

end Codes

/-! ### CG.INVERT -/

/-- Everything one step of the inversion can do. -/
theorem invertEntry_cases (x : Byte × Bits) (s : State) :
    (x.2 = [] ∧ invertEntry x s = .done s) ∨
    (x.2 ≠ [] ∧ x.2 ∉ s.rev.map RevEntry.bits ∧
      invertEntry x s = .done { s with rev := s.rev ++ [{ bits := x.2, sym := x.1 }] }) ∨
    (x.2 ≠ [] ∧ x.2 ∈ s.rev.map RevEntry.bits ∧
      invertEntry x s = .raise .duplicateCode s) := by
  by_cases hne : x.2 = []
  · exact .inl ⟨hne, if_pos hne⟩
  · rw [invertEntry, if_neg hne]
    cases hfound : revLookup s.rev x.2 with
    | none =>
      have hnew := revLookup_eq_none_iff.1 hfound
      exact .inr (.inl ⟨hne, by simpa using hnew, rfl⟩)
    | some b =>
      obtain ⟨e, he, hbits, -⟩ := exists_mem_of_revLookup hfound
      exact .inr (.inr ⟨hne, List.mem_map.2 ⟨e, he, hbits⟩, rfl⟩)

/-- The inversion appends the entries with a code, and it fails exactly where two entries of the
table it would build have the same bits. -/
theorem forEach_invertEntry_cases (xs : List (Byte × Bits)) {s : State} (hs : BitsDistinct s.rev)
    {rev : List RevEntry} (hrev : rev = s.rev ++ revOf (xs.filter fun x => x.2 != [])) :
    (BitsDistinct rev ∧ forEach invertEntry xs s = .done { s with rev := rev }) ∨
    (¬ BitsDistinct rev ∧ ∃ t, forEach invertEntry xs s = .raise .duplicateCode t) := by
  induction xs generalizing s with
  | nil =>
    obtain rfl : rev = s.rev := hrev.trans (List.append_nil _)
    exact .inl ⟨hs, rfl⟩
  | cons x xs ih =>
    rw [forEach]
    rcases invertEntry_cases x s with ⟨hnil, hx⟩ | ⟨hne, hnew, hx⟩ | ⟨hne, hold, hx⟩
    · rw [List.filter_cons_of_neg (by simpa using hnil)] at hrev
      rw [hx, done_bind]
      exact ih hs hrev
    · rw [List.filter_cons_of_pos (by simpa using hne), revOf, List.map_cons, List.append_cons]
        at hrev
      rw [hx, done_bind]
      refine ih ?_ hrev
      rw [BitsDistinct, List.map_append]
      exact List.Nodup.append hs (List.nodup_singleton _) (by simpa using hnew)
    · rw [List.filter_cons_of_pos (by simpa using hne)] at hrev
      refine .inr ⟨fun hdist => ?_, s, by rw [hx, raise_bind]⟩
      rw [hrev, BitsDistinct, List.map_append] at hdist
      exact (List.nodup_append'.1 hdist).2.2 hold (by simp [revOf])

/-- CG.INVERT completes with the inverted table exactly where all codes differ, and otherwise raises
DuplicateCodeError (42_code_generator.md R141, R142). -/
theorem cgInvert_cases (s : State) :
    (CodesDistinct s.code ∧ cgInvert s = .done { s with rev := invertedTable s.code }) ∨
    (¬ CodesDistinct s.code ∧ ∃ t, cgInvert s = .raise .duplicateCode t) := by
  rw [← bitsDistinct_invertedTable]
  exact forEach_invertEntry_cases (entries s.code) (s := { s with rev := [] }) List.nodup_nil rfl

/-- Settles O45: the table is the inverted one, which has one entry for each code. -/
theorem cgInvertInvertsADistinctTable : Obligations.CgInvertInvertsADistinctTable := by
  intro s hdist
  rcases cgInvert_cases s with ⟨-, hdone⟩ | ⟨hdup, -⟩
  · exact ⟨{ s with rev := invertedTable s.code, unitErr := none },
      congrArg (unitOutcome _) hdone, rfl, isInverse_invertedTable hdist, List.length_map _⟩
  · exact absurd hdist hdup

/-- Settles O46: equal codes are not distinct, and a failed CG.INVERT writes what every CG.INVERT
may write. -/
theorem cgInvertRaisesOnADuplicate : Obligations.CgInvertRaisesOnADuplicate := by
  intro s a b hab ha heq
  rcases cgInvert_cases s with ⟨hdist, -⟩ | ⟨-, u, hraise⟩
  · exact absurd heq (hdist a b hab ha)
  · have hexec : exec .cgInvert s = .next (u.spoilRev.nextDraw.setResult (some .duplicateCode)) :=
      congrArg (unitOutcome _) hraise
    exact ⟨_, hexec, rfl, execCgInvert_writes hexec⟩

end Sys2Proof.Machine

namespace Sys2Proof.Machine

/-! ### The CodeTable of a root: no tree, and a single leaf -/

theorem exec_cgGen_of_codesOf {s : State} {code : Table Bits}
    (h : codesOf s.arena s.root = some code) :
    exec .cgGen s = .next { s with code := code, unitErr := none } := by
  have hgen : cgGen s = .done { s with code := code } := by rw [cgGen, h]
  exact congrArg (unitOutcome _) hgen

theorem codesOf_leaf {arena : List Node} {k : NodeIdx} {sym : Byte} {f : Word}
    (h : arena[k.toNat]? = some (.leaf sym f)) :
    codesOf arena (some k) = some (tableSet (constTable []) sym [false]) := by
  simp only [codesOf, h]

theorem codesOf_internal {arena : List Node} {k l r : NodeIdx} {f : Word}
    (h : arena[k.toNat]? = some (.internal f l r)) :
    codesOf arena (some k) = label arena 256 k [] (constTable []) := by
  simp only [codesOf, h]

/-- Settles O42: the two tables that need no labelling. -/
theorem cgGenOfNoTreeAndOfASingleLeaf : Obligations.CgGenOfNoTreeAndOfASingleLeaf := by
  constructor
  · intro s hroot
    exact ⟨{ s with code := constTable [], unitErr := none },
      congrArg (unitOutcome _) (cgGen_of_no_tree hroot), rfl, tableGet_constTable []⟩
  · intro s k sym f hroot hleaf
    refine ⟨_, exec_cgGen_of_codesOf (hroot ▸ codesOf_leaf hleaf), rfl, ?_, fun b hb => ?_⟩
    · rw [tableGet_tableSet, if_pos rfl]
    · rw [tableGet_tableSet, if_neg hb, tableGet_constTable]

/-! ### Paths in ARENA -/

section Walk

variable {arena : List Node} {k l r : NodeIdx} {f : Word}

theorem walk_internal (h : arena[k.toNat]? = some (.internal f l r)) (v : Bool) (c : Bits) :
    walk arena k (v :: c) = walk arena (if v then r else l) c := by
  rw [walk, h]

theorem walk_leaf {sym : Byte} (h : arena[k.toNat]? = some (.leaf sym f)) (v : Bool) (c : Bits) :
    walk arena k (v :: c) = none := by
  rw [walk, h]

/-- A path that goes somewhere through a first choice starts at an Internal node. -/
theorem walk_cons_eq_some {v : Bool} {c : Bits} {x : Node} (h : walk arena k (v :: c) = some x) :
    ∃ f l r, arena[k.toNat]? = some (.internal f l r) ∧
      walk arena (if v then r else l) c = some x := by
  rw [walk] at h
  split at h
  next f l r hk => exact ⟨f, l, r, hk, h⟩
  next => cases h

/-- A path goes on from where it has come. -/
theorem walk_append {c : Bits} {x : Node} {j : NodeIdx} (h : walk arena k c = some x)
    (hj : arena[j.toNat]? = some x) (d : Bits) : walk arena k (c ++ d) = walk arena j d := by
  induction c generalizing k with
  | nil =>
    have hkj : arena[k.toNat]? = arena[j.toNat]? := h.trans hj.symm
    cases d with
    | nil => exact hkj
    | cons v d => rw [List.nil_append, walk, walk, hkj]
  | cons v c ih =>
    obtain ⟨f, l, r, hk, hc⟩ := walk_cons_eq_some h
    rw [List.cons_append, walk_internal hk]
    exact ih hc

/-- A path leads to a record. -/
theorem exists_index_of_walk {c : Bits} {x : Node} (h : walk arena k c = some x) :
    ∃ j : NodeIdx, arena[j.toNat]? = some x := by
  induction c generalizing k with
  | nil => exact ⟨k, h⟩
  | cons v c ih =>
    obtain ⟨f, l, r, -, hc⟩ := walk_cons_eq_some h
    exact ih hc

end Walk

/-- The path leads from the node to a leaf of the symbol (42_code_generator.md R136). -/
def LeadsTo (arena : List Node) (k : NodeIdx) (c : Bits) (b : Byte) : Prop :=
  ∃ g, walk arena k c = some (.leaf b g)

section LeadsTo

variable {arena : List Node} {k l r : NodeIdx} {f : Word} {c : Bits} {b : Byte}

theorem leadsTo_leaf {sym : Byte} (h : arena[k.toNat]? = some (.leaf sym f)) :
    LeadsTo arena k c b ↔ c = [] ∧ b = sym := by
  cases c with
  | nil =>
    rw [LeadsTo, walk, h]
    simp [eq_comm]
  | cons v c => simp [LeadsTo, walk_leaf h]

theorem leadsTo_internal_cons (h : arena[k.toNat]? = some (.internal f l r)) (v : Bool) :
    LeadsTo arena k (v :: c) b ↔ LeadsTo arena (if v then r else l) c b := by
  rw [LeadsTo, walk_internal h, LeadsTo]

theorem ne_nil_of_leadsTo_internal (h : arena[k.toNat]? = some (.internal f l r))
    (hc : LeadsTo arena k c b) : c ≠ [] := by
  rintro rfl
  obtain ⟨g, hg⟩ := hc
  cases h.symm.trans hg

/-- No path to a leaf goes on to another symbol's leaf, for none leads on from a leaf
(42_code_generator.md R139 (c)). -/
theorem LeadsTo.eq_of_isPrefix {c' : Bits} {b' : Byte} (h : LeadsTo arena k c b)
    (h' : LeadsTo arena k c' b') (hpre : c <+: c') : b = b' := by
  obtain ⟨d, rfl⟩ := hpre
  obtain ⟨g, hg⟩ := h
  obtain ⟨g', hg'⟩ := h'
  obtain ⟨j, hj⟩ := exists_index_of_walk hg
  rw [walk_append hg hj] at hg'
  exact ((leadsTo_leaf hj).1 ⟨g', hg'⟩).2.symm

end LeadsTo

/-! ### The labelling -/

/-- What the labelling of the tree at a node makes of a table: a symbol of one of its leaves gets a
path to such a leaf, behind the path to the node, and every other symbol keeps its entry
(42_code_generator.md R136). -/
structure Labelled (arena : List Node) (k : NodeIdx) (path : Bits) (code code' : Table Bits) :
    Prop where
  recorded : ∀ c b, LeadsTo arena k c b →
    ∃ c', LeadsTo arena k c' b ∧ tableGet code' b = path ++ c'
  kept : ∀ b, (∀ c, ¬ LeadsTo arena k c b) → tableGet code' b = tableGet code b

section Label

variable {arena : List Node} {k : NodeIdx} {code code' : Table Bits}

theorem labelled_leaf {sym : Byte} {f : Word} (h : arena[k.toNat]? = some (.leaf sym f))
    (path : Bits) : Labelled arena k path code (tableSet code sym path) where
  recorded c b hc := by
    obtain ⟨rfl, rfl⟩ := (leadsTo_leaf h).1 hc
    exact ⟨[], hc, by rw [tableGet_tableSet, if_pos rfl, List.append_nil]⟩
  kept b hb := by
    rw [tableGet_tableSet, if_neg fun hsym => hb [] ((leadsTo_leaf h).2 ⟨rfl, hsym⟩)]

/-- The subtrees are labelled left to right; a symbol in both keeps the path on the right. -/
theorem labelled_internal {l r : NodeIdx} {f : Word} {path : Bits} {mid : Table Bits}
    (h : arena[k.toNat]? = some (.internal f l r))
    (hl : Labelled arena l (path ++ [false]) code mid)
    (hr : Labelled arena r (path ++ [true]) mid code') : Labelled arena k path code code' where
  recorded c b hc := by
    by_cases hright : ∃ d, LeadsTo arena r d b
    · obtain ⟨d, hd⟩ := hright
      obtain ⟨c', hc', hget⟩ := hr.recorded d b hd
      exact ⟨true :: c', (leadsTo_internal_cons h true).2 hc', by rw [hget, ← List.append_cons]⟩
    · rw [not_exists] at hright
      match c with
      | [] => exact absurd rfl (ne_nil_of_leadsTo_internal h hc)
      | true :: c => exact absurd ((leadsTo_internal_cons h true).1 hc) (hright c)
      | false :: c =>
        obtain ⟨c', hc', hget⟩ := hl.recorded c b ((leadsTo_internal_cons h false).1 hc)
        exact ⟨false :: c', (leadsTo_internal_cons h false).2 hc', by
          rw [hr.kept b hright, hget, ← List.append_cons]⟩
  kept b hb := by
    rw [hr.kept b fun c hc => hb (true :: c) ((leadsTo_internal_cons h true).2 hc),
      hl.kept b fun c hc => hb (false :: c) ((leadsTo_internal_cons h false).2 hc)]

theorem label_labelled {n : Nat} {path : Bits} (h : label arena n k path code = some code') :
    Labelled arena k path code code' := by
  induction n generalizing k path code code' with
  | zero => cases h
  | succ n ih =>
    rw [label] at h
    split at h
    next => cases h
    next sym f hk =>
      cases h
      exact labelled_leaf hk path
    next f l r hk =>
      split at h
      next => cases h
      next mid hmid => exact labelled_internal hk (ih hmid) (ih h)

/-! ### The CodeTable of a tree -/

theorem codesOf_internal_leadsTo {l r : NodeIdx} {f : Word}
    (hk : arena[k.toNat]? = some (.internal f l r)) (h : codesOf arena (some k) = some code)
    {b : Byte} (hb : tableGet code b ≠ []) : LeadsTo arena k (tableGet code b) b := by
  have labelled := label_labelled ((codesOf_internal hk).symm.trans h)
  by_cases hreach : ∃ c, LeadsTo arena k c b
  · obtain ⟨c, hc⟩ := hreach
    obtain ⟨c', hc', hget⟩ := labelled.recorded c b hc
    rwa [hget]
  · rw [labelled.kept b (not_exists.1 hreach), tableGet_constTable] at hb
    exact absurd rfl hb

/-- There are codes only where ROOT names a record. -/
theorem codesOf_root_cases (h : codesOf arena (some k) = some code) :
    (∃ sym f, arena[k.toNat]? = some (.leaf sym f)) ∨
    ∃ f l r, arena[k.toNat]? = some (.internal f l r) := by
  cases hk : arena[k.toNat]? with
  | none => simp [codesOf, hk, label] at h
  | some x =>
    cases x with
    | leaf sym f => exact .inl ⟨sym, f, rfl⟩
    | internal f l r => exact .inr ⟨f, l, r, rfl⟩

/-- Exactly the symbols of the leaves that a path from the root reaches get a code. -/
theorem codesOf_ne_nil_iff (h : codesOf arena (some k) = some code) (b : Byte) :
    tableGet code b ≠ [] ↔ ∃ c, LeadsTo arena k c b := by
  rcases codesOf_root_cases h with ⟨sym, f, hk⟩ | ⟨f, l, r, hk⟩
  · obtain rfl := Option.some.inj ((codesOf_leaf hk).symm.trans h)
    simp [leadsTo_leaf hk, tableGet_tableSet]
  · constructor
    · exact fun hb => ⟨_, codesOf_internal_leadsTo hk h hb⟩
    · rintro ⟨c, hc⟩
      have labelled := label_labelled ((codesOf_internal hk).symm.trans h)
      obtain ⟨c', hc', hget⟩ := labelled.recorded c b hc
      rw [hget]
      exact ne_nil_of_leadsTo_internal hk hc'

/-- The same where ROOT may be None, which reaches no leaf. -/
theorem codesOf_ne_nil_iff_of_root {root : Option NodeIdx} (h : codesOf arena root = some code)
    (b : Byte) :
    tableGet code b ≠ [] ↔ ∃ r, root = some r ∧ ∃ c, LeadsTo arena r c b := by
  cases root with
  | none =>
    obtain rfl := Option.some.inj h
    simp
  | some k => simpa using codesOf_ne_nil_iff h b

/-- The codes are `PrefixFree` on whatever tree they come from (42_code_generator.md R139 (c)). -/
theorem codesOf_prefixFree {root : Option NodeIdx} (h : codesOf arena root = some code) :
    PrefixFree code := by
  intro a b hab ha hb hpre
  cases root with
  | none =>
    obtain rfl := Option.some.inj h
    exact ha (tableGet_constTable [] a)
  | some k =>
    rcases codesOf_root_cases h with ⟨sym, f, hk⟩ | ⟨f, l, r, hk⟩
    · obtain ⟨c, hc⟩ := (codesOf_ne_nil_iff h a).1 ha
      obtain ⟨d, hd⟩ := (codesOf_ne_nil_iff h b).1 hb
      exact hab (((leadsTo_leaf hk).1 hc).2.trans ((leadsTo_leaf hk).1 hd).2.symm)
    · exact hab ((codesOf_internal_leadsTo hk h ha).eq_of_isPrefix
        (codesOf_internal_leadsTo hk h hb) hpre)

end Label

/-- Settles O43: the labelling of the tree at ROOT, into the empty table. -/
theorem cgGenRecordsPathsToLeaves : Obligations.CgGenRecordsPathsToLeaves := by
  intro s k f l r hroot hk hends
  obtain ⟨code, hlabel⟩ := exists_label_of_endsWithin hends [] (constTable [])
  have hcodes : codesOf s.arena (some k) = some code := (codesOf_internal hk).trans hlabel
  exact ⟨_, exec_cgGen_of_codesOf (hroot ▸ hcodes), rfl,
    fun b hb => codesOf_internal_leadsTo hk hcodes hb,
    fun c b g hg => (codesOf_ne_nil_iff hcodes b).2 ⟨c, g, hg⟩⟩

end Sys2Proof.Machine

namespace Sys2Proof.Machine

/-! ### The codes of a tree that TB.BUILD has made -/

theorem holdsTree_of_exec {s t : State} (h : exec .tbBuild s = .next t) : HoldsTree t :=
  unitOutcome_keeps (tbBuild_holdsTree s) (fun _ hu => hu) (fun _ _ hu => hu.elim) h

theorem mem_presentCounts {freq : Table Word} {x : Byte × Word} :
    x ∈ presentCounts freq ↔ x.2 = tableGet freq x.1 ∧ x.2 ≠ 0#32 := by
  simp [presentCounts, mem_entries]

namespace Forest

variable {L : List (Byte × Word)} {arena : List Node} {roots : List Elem}

theorem leaf_mem_iff (h : Forest L arena roots) {b : Byte} {g : Word} :
    Node.leaf b g ∈ arena ↔ (b, g) ∈ L := by
  constructor
  · intro hmem
    obtain ⟨k, hk⟩ := List.mem_iff_getElem?.1 hmem
    rcases Nat.lt_or_ge k L.length with hlt | hge
    · have htake : Node.leaf b g ∈ arena.take L.length :=
        List.mem_of_getElem? ((List.getElem?_take_of_lt hlt).trans hk)
      rw [h.leaves] at htake
      obtain ⟨⟨b', g'⟩, hx, heq⟩ := List.mem_map.1 htake
      cases heq
      exact hx
    · obtain ⟨f, l, r, hsum, -⟩ := h.sums k hge (List.getElem?_eq_some_iff.1 hk).1
      cases hk.symm.trans hsum
  · intro hx
    have htake : Node.leaf b g ∈ arena.take L.length := h.leaves ▸ List.mem_map_of_mem hx
    exact List.mem_of_mem_take htake

/-- Every record is a root or the child of a record. -/
theorem root_or_child (h : Forest L arena roots) {j : Nat} (hj : j < arena.length) :
    j ∈ roots ∨ ∃ (k : Nat) (f : Word) (l r : NodeIdx),
      arena[k]? = some (.internal f l r) ∧ (j = l.toNat ∨ j = r.toNat) := by
  rcases List.mem_append.1 (h.parents.mem_iff.2 (List.mem_range.2 hj)) with hchild | hroot
  · obtain ⟨x, hx, hc⟩ := List.mem_flatMap.1 hchild
    obtain ⟨k, hk⟩ := List.mem_iff_getElem?.1 hx
    cases x with
    | leaf sym f => cases hc
    | internal f l r => exact .inr ⟨k, f, l, r, hk, List.mem_pair.1 hc⟩
  · exact .inl hroot

/-- A path from a root leads to every record: it goes through the record's parent, which stands
above it (41_tree_builder.md R131 (c), (d)). -/
theorem exists_walk (h : Forest L arena roots) {j : Nat} (hj : j < arena.length) :
    ∃ k ∈ roots, ∃ c, walk arena (BitVec.ofNat 9 k) c = arena[j]? := by
  rcases h.root_or_child hj with hroot | ⟨p, f, l, r, hp, hchild⟩
  · exact ⟨j, hroot, [], by rw [walk, toNat_index (hj.trans_le h.length_le)]⟩
  · have hpar : p < arena.length := (List.getElem?_eq_some_iff.1 hp).1
    have hlt : j < p := h.child_lt hp (List.mem_pair.2 hchild)
    obtain ⟨k, hk, c, hc⟩ := h.exists_walk hpar
    have hp9 : arena[(BitVec.ofNat 9 p).toNat]? = some (.internal f l r) := by
      rw [toNat_index (hpar.trans_le h.length_le), hp]
    have on (v : Bool) : walk arena (BitVec.ofNat 9 k) (c ++ [v]) =
        arena[(if v then r else l).toNat]? := by
      rw [walk_append (hc.trans hp) hp9, walk_internal hp9, walk]
    rcases hchild with rfl | rfl
    · exact ⟨k, hk, c ++ [false], on false⟩
    · exact ⟨k, hk, c ++ [true], on true⟩
termination_by arena.length - j

end Forest

/-- The leaves that a path from ROOT reaches are those of the present symbols. -/
theorem Built.leadsTo_iff {L : List (Byte × Word)} {s : State} (h : Built L s) (b : Byte) :
    (∃ r, s.root = some r ∧ ∃ c, LeadsTo s.arena r c b) ↔ ∃ g, (b, g) ∈ L := by
  constructor
  · rintro ⟨r, -, c, g, hg⟩
    obtain ⟨j, hj⟩ := exists_index_of_walk hg
    exact ⟨g, h.forest.leaf_mem_iff.1 (List.mem_of_getElem? hj)⟩
  · rintro ⟨g, hx⟩
    obtain ⟨j, hj⟩ := List.mem_iff_getElem?.1 (h.forest.leaf_mem_iff.2 hx)
    obtain ⟨k, hk, c, hc⟩ := h.forest.exists_walk (List.getElem?_eq_some_iff.1 hj).1
    obtain ⟨r, hr, rfl⟩ := List.mem_map.1 hk
    rw [BitVec.ofNat_toNat, BitVec.setWidth_eq] at hc
    exact ⟨r, Option.mem_toList.1 hr, c, g, hc.trans hj⟩

/-- Settles O44: TB.BUILD leaves a tree, so the labelling has a result; its codes are `PrefixFree`
and fit on any tree, and the leaves that ROOT reaches are those of the present symbols. -/
theorem cgGenOfABuiltTreeIsAPrefixCode : Obligations.CgGenOfABuiltTreeIsAPrefixCode := by
  intro s t h
  obtain ⟨code, hcodes⟩ := exists_codesOf (holdsTree_of_exec h)
  refine ⟨_, exec_cgGen_of_codesOf hcodes, rfl, codesOf_prefixFree hcodes,
    codesOf_codesFit hcodes, fun b => ?_⟩
  calc tableGet code b ≠ []
      ↔ ∃ r, t.root = some r ∧ ∃ c, LeadsTo t.arena r c b := codesOf_ne_nil_iff_of_root hcodes b
    _ ↔ ∃ g, (b, g) ∈ presentCounts s.freq := (built_of_exec h).leadsTo_iff b
    _ ↔ tableGet s.freq b ≠ 0#32 := by simp [mem_presentCounts]

end Sys2Proof.Machine

namespace Sys2Proof.Machine

/-- A stand-alone operation that raises an error reports it (60_exceptions.md R222). -/
theorem unitOutcome_of_raise {spoil : State → State} {r : Res} {e : Err}
    (h : ∃ s, r = .raise e s) : ∃ t, unitOutcome spoil r = .next t ∧ t.unitErr = some e := by
  obtain ⟨s, rfl⟩ := h
  exact ⟨_, rfl, rfl⟩

/-! ### The first pass of BP.ENCODE -/

/-- The first pass raises UnknownSymbolError, or it finds a code for every byte and counts the bits
of the text (43_bit_packer.md R150, R151). -/
theorem forEach_addLength_cases (text : List Byte) (s : State) :
    ((∃ b ∈ text, tableGet s.code b = []) ∧
      ∃ t, forEach addLength text s = .raise .unknownSymbol t) ∨
    ((∀ b ∈ text, tableGet s.code b ≠ []) ∧ forEach addLength text s =
      .done { s with bitpos := s.bitpos + (textBits s.code text).length }) := by
  induction text generalizing s with
  | nil => exact .inr ⟨List.forall_mem_nil _, rfl⟩
  | cons b text ih =>
    rw [forEach, addLength]
    by_cases hb : tableGet s.code b = []
    · exact .inl ⟨⟨b, List.mem_cons_self, hb⟩, s, by rw [if_pos hb, raise_bind]⟩
    · rw [if_neg hb, done_bind, textBits_cons, List.length_append, ← Nat.add_assoc]
      rcases ih { s with bitpos := s.bitpos + (tableGet s.code b).length } with
        ⟨⟨b', hb', hnil⟩, hraise⟩ | ⟨hall, hdone⟩
      · exact .inl ⟨⟨b', List.mem_cons_of_mem b hb', hnil⟩, hraise⟩
      · exact .inr ⟨List.forall_mem_cons.2 ⟨hb, hall⟩, hdone⟩

/-- The state between the two passes: BITPOS holds the bit total (43_bit_packer.md R150). -/
def countedEncode (s : State) : State :=
  { startEncode s with bitpos := (textBits s.code s.inputText).length }

section Encode

variable {s : State}

theorem not_inputTooLong_of_legal (hl : s.ilen.toNat ≤ s.params.ibufCap.toNat) :
    ¬ s.inputTooLong = true := by
  simpa [State.inputTooLong] using hl

/-- What the first pass and the two tests after it leave of BP.ENCODE, on a legal length
(43_bit_packer.md R150 to R152; 60_exceptions.md R221). -/
theorem bpEncode_of_legal (hl : s.ilen.toNat ≤ s.params.ibufCap.toNat) :
    ((∃ b ∈ s.inputText, tableGet s.code b = []) ∧
      ∃ t, bpEncode s = .raise .unknownSymbol t) ∨
    ((∀ b ∈ s.inputText, tableGet s.code b ≠ []) ∧ bpEncode s =
      if Config.maxBitCount < (textBits s.code s.inputText).length
      then .raise .outputOverflow (countedEncode s)
      else forEach putCode s.inputText (startPayload (countedEncode s))) := by
  rcases forEach_addLength_cases s.inputText (startEncode s) with ⟨hmiss, t, hraise⟩ | ⟨hall, hdone⟩
  · exact .inl ⟨hmiss, t, by rw [bpEncode, hraise, raise_bind]⟩
  · have hcounted : forEach addLength s.inputText (startEncode s) = .done (countedEncode s) :=
      hdone.trans (by rw [countedEncode, startEncode, Nat.zero_add])
    refine .inr ⟨hall, ?_⟩
    rw [bpEncode, hcounted, done_bind,
      if_neg (not_inputTooLong_of_legal (s := countedEncode s) hl)]
    rfl

/-! ### The second pass of BP.ENCODE -/

theorem completes_forEach {α : Type} {P : List α → State → Prop} {body : α → State → Res}
    (hbody : ∀ done x t, P done t → (body x t).Completes (P (done ++ [x]))) (xs : List α)
    {done : List α} {t : State} (h : P done t) :
    (forEach body xs t).Completes (P (done ++ xs)) := by
  induction xs generalizing done t with
  | nil => simpa [forEach, Res.Completes] using h
  | cons x xs ih =>
    rw [List.append_cons]
    exact completes_bind (hbody done x t h) fun _ => ih

/-- The bits `placed` stand at the head of the stream, up to BITPOS; since `s` no later stream bit
has changed, and no field that the second pass reads. -/
structure Streamed (s : State) (placed : Bits) (t : State) : Prop where
  code : t.code = s.code
  vbc : t.vbc = s.vbc
  plen : t.plen = s.plen
  bitpos : t.bitpos = placed.length
  head : (List.range placed.length).map (t.payload.bit .payload) = placed
  beyond : ∀ i, placed.length ≤ i → t.payload.bit .payload i = s.payload.bit .payload i

theorem Streamed.refl (h : s.bitpos = 0) : Streamed s [] s :=
  ⟨rfl, rfl, rfl, h, rfl, fun _ _ => rfl⟩

theorem putBit_streamed {placed : Bits} {t : State} (v : Bool) (h : Streamed s placed t) :
    (putBit v t).Completes (Streamed s (placed ++ [v])) := by
  obtain ⟨hcode, hvbc, hplen, hpos, hhead, hbeyond⟩ := h
  have hbit (j : Nat) : (t.payload.setBit .payload t.bitpos v).bit .payload j =
      if j = placed.length then v else t.payload.bit .payload j := by
    rw [bit_setBit, hpos]
  have hlen : (placed ++ [v]).length = placed.length + 1 := by simp
  refine ⟨hcode, hvbc, hplen, by rw [hlen, ← hpos], ?_, fun i hi => ?_⟩
  · have hkept : (List.range placed.length).map
        ((t.payload.setBit .payload t.bitpos v).bit .payload) = placed := by
      conv_rhs => rw [← hhead]
      refine List.map_congr_left fun j hj => ?_
      rw [hbit, if_neg (List.mem_range.1 hj).ne]
    rw [hlen, List.range_succ, List.map_append, List.map_singleton]
    exact congrArg₂ (· ++ ·) hkept (by rw [hbit, if_pos rfl])
  · rw [hlen] at hi
    exact (hbit i).trans ((if_neg (by omega)).trans (hbeyond i (by omega)))

theorem putCode_streamed {placed : Bits} {t : State} (b : Byte) (h : Streamed s placed t) :
    (putCode b t).Completes (Streamed s (placed ++ tableGet s.code b)) := by
  rw [putCode, h.code]
  exact completes_forEach (fun _ v _ ht => putBit_streamed v ht) _ h

/-- The second pass places the concatenated codes (43_bit_packer.md R150). -/
theorem forEach_putCode_streamed (text : List Byte) (h : s.bitpos = 0) :
    (forEach putCode text s).Completes (Streamed s (textBits s.code text)) := by
  refine completes_forEach (P := fun done => Streamed s (textBits s.code done))
    (fun done b t ht => ?_) text (done := []) (Streamed.refl h)
  have hbits : textBits s.code (done ++ [b]) = textBits s.code done ++ tableGet s.code b := by
    simp [textBits]
  rw [hbits]
  exact putCode_streamed b ht

/-- The bits of a run of zero bytes (20_memory.md R54, R55). -/
theorem bit_writeBytes_zeros (sp : Space) (m : Mem) {n i : Nat} (h : i < 8 * n) :
    (m.writeBytes 0 (List.replicate n 0#8)).bit sp i = false := by
  have hread := read_writeBytes_inside sp (List.replicate n 0#8) m 0 (i / 8)
    (by rw [List.length_replicate]; omega)
  rw [Nat.zero_add, List.getElem_replicate] at hread
  rw [Mem.bit, hread]
  exact BitVec.getLsbD_zero

/-- What BP.ENCODE leaves where it completes (43_bit_packer.md R150, R152, R153). -/
structure Packed (s t : State) : Prop where
  frame : Agrees State.exceptPacked s t
  vbc : t.vbc.toNat = (textBits s.code s.inputText).length
  plen : t.plen.toNat = ceilDiv8 t.vbc.toNat
  stream : storedBits t = textBits s.code s.inputText
  padding : ∀ i, t.vbc.toNat ≤ i → i < 8 * t.plen.toNat → t.payload.bit .payload i = false
  kept : PayloadKeptBeyond s t

theorem bpEncode_packed (hfit : (textBits s.code s.inputText).length ≤ Config.maxBitCount)
    (heq : bpEncode s = forEach putCode s.inputText (startPayload (countedEncode s))) :
    (bpEncode s).Completes (Packed s) := by
  obtain ⟨t, ht, hst⟩ := completes_iff.1 <|
    forEach_putCode_streamed (s := startPayload (countedEncode s)) s.inputText rfl
  have hframe := bpEncode_exceptPacked s
  have hkept := bpEncode_payloadKept s
  rw [heq, ht] at hframe hkept ⊢
  have hlt : (textBits s.code s.inputText).length < 2 ^ 32 := Nat.lt_succ_of_le hfit
  have hvbc : t.vbc.toNat = (textBits s.code s.inputText).length := by
    rw [hst.vbc]
    exact Nat.mod_eq_of_lt hlt
  have hplen : t.plen.toNat = ceilDiv8 t.vbc.toNat := by
    rw [hst.plen, hvbc]
    exact toNat_ceilDiv8 hlt
  refine ⟨hframe, hvbc, hplen, ?_, fun i hlo hhi => ?_, hkept⟩
  · rw [storedBits, hvbc]
    exact hst.head
  · rw [hvbc] at hlo
    rw [hplen, hvbc] at hhi
    exact (hst.beyond i hlo).trans (bit_writeBytes_zeros _ _ hhi)

/-- Everything BP.ENCODE can do on a legal length (43_bit_packer.md R150 to R153). -/
theorem bpEncode_cases (hl : s.ilen.toNat ≤ s.params.ibufCap.toNat) :
    ((∃ b ∈ s.inputText, tableGet s.code b = []) ∧
      ∃ t, bpEncode s = .raise .unknownSymbol t) ∨
    ((∀ b ∈ s.inputText, tableGet s.code b ≠ []) ∧
      Config.maxBitCount < (textBits s.code s.inputText).length ∧
      ∃ t, bpEncode s = .raise .outputOverflow t) ∨
    ((∀ b ∈ s.inputText, tableGet s.code b ≠ []) ∧
      (textBits s.code s.inputText).length ≤ Config.maxBitCount ∧
      ∃ t, bpEncode s = .done t ∧ Packed s t) := by
  rcases bpEncode_of_legal hl with hmiss | ⟨hall, heq⟩
  · exact .inl hmiss
  · rcases Nat.lt_or_ge Config.maxBitCount (textBits s.code s.inputText).length with hlong | hfit
    · exact .inr (.inl ⟨hall, hlong, _, heq.trans (if_pos hlong)⟩)
    · rw [if_neg (Nat.not_lt.2 hfit)] at heq
      exact .inr (.inr ⟨hall, hfit, completes_iff.1 (bpEncode_packed hfit heq)⟩)

end Encode

/-- Settles O47: the first pass counts the bits, the second puts them at the head of the stream, and
the zeroed bytes leave the padding. -/
theorem bpEncodePacksTheCodes : Obligations.BpEncodePacksTheCodes := by
  intro s hl hcodes hfit
  rcases bpEncode_cases hl with ⟨⟨b, hb, hnil⟩, -⟩ | ⟨-, hlong, -⟩ | ⟨-, -, t, ht, hp⟩
  · exact absurd hnil (hcodes b hb)
  · exact absurd hlong (Nat.not_lt.2 hfit)
  · have hframe : t.setResult none =
        { s with payload := t.payload, plen := t.plen, vbc := t.vbc, bitpos := t.bitpos,
                 pkByte := t.pkByte, pkCnt := t.pkCnt, unitErr := none } :=
      congrArg (fun u : State =>
        { u with payload := t.payload, plen := t.plen, vbc := t.vbc, bitpos := t.bitpos,
                 pkByte := t.pkByte, pkCnt := t.pkCnt, unitErr := none }) hp.frame
    exact ⟨t.setResult none, congrArg (unitOutcome _) ht, hframe, hp.vbc, hp.plen, hp.stream,
      hp.padding, hp.kept⟩

/-- Settles O48: the first pass meets every byte before the total is tested. -/
theorem bpEncodeRaisesItsTwoErrors : Obligations.BpEncodeRaisesItsTwoErrors := by
  intro s hl
  rcases bpEncode_cases hl with ⟨⟨b, hb, hnil⟩, hraise⟩ | ⟨hall, -, hraise⟩ | ⟨hall, hfit, -⟩
  · exact ⟨fun _ => unitOutcome_of_raise hraise, fun hcodes _ => absurd hnil (hcodes b hb)⟩
  · exact ⟨fun ⟨b, hb, hnil⟩ => absurd hnil (hall b hb), fun _ _ => unitOutcome_of_raise hraise⟩
  · exact ⟨fun ⟨b, hb, hnil⟩ => absurd hnil (hall b hb),
      fun _ hlong => absurd hlong (Nat.not_lt.2 hfit)⟩

end Sys2Proof.Machine

namespace Sys2Proof.Machine

/-! ### BP.DECODE's loop -/

/-- The next `n` bits of the stream, from BITPOS. -/
def bitsAhead (s : State) (n : Nat) : Bits :=
  (List.range' s.bitpos n).map (s.payload.bit .payload)

section Decode

variable {s : State}

theorem bitsAhead_startDecode (s : State) :
    bitsAhead (startDecode s) s.vbc.toNat = storedBits s := by
  rw [storedBits, List.range_eq_range']
  rfl

/-- Below 8 * PLEN the decoder reads the payload (20_memory.md R54). -/
theorem payloadBit_of_lt (d : Nat) {i : Nat} (h : i < 8 * s.plen.toNat) :
    payloadBit d s i = s.payload.bit .payload i :=
  if_pos (by omega)

/-- Everything one iteration of the decoder can do with a bit of the payload (43_bit_packer.md R154,
R156). -/
theorem decodeBit_cases (d : Nat) {acc : Bits} (h : s.bitpos < 8 * s.plen.toNat)
    (hacc : acc = s.acc ++ [s.payload.bit .payload s.bitpos]) :
    (revLookup s.rev acc = none ∧
      decodeBit d s = .done { s with acc := acc, bitpos := s.bitpos + 1 }) ∨
    (∃ y, revLookup s.rev acc = some y ∧ s.wpos + 1 ≤ s.params.obufCap.toNat ∧
      decodeBit d s = .done { s with
        acc := [], bitpos := s.bitpos + 1, obuf := s.obuf.write s.wpos y, wpos := s.wpos + 1 }) ∨
    (∃ y, revLookup s.rev acc = some y ∧ s.params.obufCap.toNat < s.wpos + 1 ∧
      ∃ t, decodeBit d s = .raise .outputOverflow t) := by
  rw [decodeBit, payloadBit_of_lt d h, ← hacc]
  cases revLookup s.rev acc with
  | none => exact .inl ⟨rfl, rfl⟩
  | some y =>
    rcases emit_cases [y] { s with acc := acc } with ⟨hfull, he⟩ | ⟨hroom, he⟩
    · exact .inr (.inr ⟨y, rfl, hfull, _, congrArg (Res.bind · _) he⟩)
    · exact .inr (.inl ⟨y, rfl, hroom, congrArg (Res.bind · _) he⟩)

/-- The loop over `n` bits of the payload is the greedy decoder on them: it writes the symbols and
keeps the buffer left, or the symbols do not fit OBUF (43_bit_packer.md R154 to R157). -/
theorem decodeLoop_greedy (d n : Nat) {bits : Bits} (hbits : bits = bitsAhead s n)
    (hn : s.bitpos + n ≤ 8 * s.plen.toNat) (hw : WposFits s) :
    (s.wpos + (greedy s.rev s.acc bits).1.length ≤ s.params.obufCap.toNat ∧
      decodeLoop d n s = .done { s with
        acc := (greedy s.rev s.acc bits).2
        bitpos := s.bitpos + n
        obuf := s.obuf.writeBytes s.wpos (greedy s.rev s.acc bits).1
        wpos := s.wpos + (greedy s.rev s.acc bits).1.length }) ∨
    (s.params.obufCap.toNat < s.wpos + (greedy s.rev s.acc bits).1.length ∧
      ∃ t, decodeLoop d n s = .raise .outputOverflow t) := by
  induction n generalizing s bits with
  | zero =>
    subst hbits
    exact .inl ⟨hw, rfl⟩
  | succ n ih =>
    obtain rfl : bits = s.payload.bit .payload s.bitpos :: (List.range' (s.bitpos + 1) n).map
        (s.payload.bit .payload) := hbits
    have hnext : s.bitpos + (n + 1) = s.bitpos + 1 + n := by omega
    rw [hnext] at hn
    rw [decodeLoop, greedy, hnext]
    rcases decodeBit_cases (s := s) d (by omega) rfl with
      ⟨hnone, hd⟩ | ⟨y, hsome, hroom, hd⟩ | ⟨y, hsome, hfull, t, hd⟩
    · rw [hnone, hd, done_bind]
      exact ih (s := { s with acc := _, bitpos := s.bitpos + 1 }) rfl hn hw
    · rw [hsome, hd, done_bind, List.length_cons, Nat.add_comm _ 1, ← Nat.add_assoc]
      exact ih (s := { s with
        acc := [], bitpos := s.bitpos + 1, obuf := _, wpos := s.wpos + 1 }) rfl hn hroom
    · rw [hsome, hd, raise_bind]
      exact .inr ⟨by simp only [List.length_cons]; omega, t, rfl⟩

/-- A stream that the payload holds uses up no draw (log 15). -/
theorem startDecode_of_fits (h : StreamFits s) :
    startDecode s = { s with acc := [], wpos := 0, bitpos := 0 } := by
  rw [startDecode, if_neg (Nat.not_lt.2 h)]

/-- Everything BP.DECODE can do on a stream that the payload holds (43_bit_packer.md R154 to R160,
R163). -/
theorem bpDecode_cases (h : StreamFits s) {syms : List Byte} {left : Bits}
    (hg : greedy s.rev [] (storedBits s) = (syms, left)) :
    (syms.length ≤ s.params.obufCap.toNat ∧ left = [] ∧ bpDecode s = .done { s with
      acc := [], bitpos := s.vbc.toNat, obuf := s.obuf.writeBytes 0 syms, wpos := syms.length }) ∨
    (syms.length ≤ s.params.obufCap.toNat ∧ left ≠ [] ∧
      ∃ t, bpDecode s = .raise .incompleteData t) ∨
    (s.params.obufCap.toNat < syms.length ∧ ∃ t, bpDecode s = .raise .outputOverflow t) := by
  have loop := decodeLoop_greedy s.fresh s.vbc.toNat (bitsAhead_startDecode s).symm
    ((Nat.zero_add _).trans_le h) (Nat.zero_le _)
  rw [startDecode_of_fits h] at loop
  simp only [hg, Nat.zero_add] at loop
  rw [bpDecode, startDecode_of_fits h]
  rcases loop with ⟨hfits, hdone⟩ | ⟨hfull, t, hraise⟩
  · rw [hdone, done_bind]
    by_cases hleft : left = []
    · subst hleft
      exact .inl ⟨hfits, rfl, rfl⟩
    · exact .inr (.inl ⟨hfits, hleft, _, if_neg hleft⟩)
  · exact .inr (.inr ⟨hfull, t, by rw [hraise, raise_bind]⟩)

end Decode

/-- Settles O50: the loop is the greedy decoder, and after it ACC holds the bits left. -/
theorem bpDecodeIsTheGreedyDecoder : Obligations.BpDecodeIsTheGreedyDecoder := by
  intro s hs
  cases hg : greedy s.rev [] (storedBits s) with
  | mk syms left =>
    rcases bpDecode_cases hs hg with ⟨hfits, hnil, hdone⟩ | ⟨hfits, hleft, hraise⟩ | ⟨hfull, hraise⟩
    · exact ⟨fun _ _ => ⟨_, congrArg (unitOutcome _) hdone, rfl, rfl, readBytes_writeBytes _ _ _ _,
        fun a ha => read_writeBytes_outside _ _ _ _ _ (.inr (by rwa [Nat.zero_add]))⟩,
        fun _ hne => absurd hnil hne, fun hfull => absurd hfull (Nat.not_lt.2 hfits)⟩
    · exact ⟨fun _ hnil => absurd hnil hleft, fun _ _ => unitOutcome_of_raise hraise,
        fun hfull => absurd hfull (Nat.not_lt.2 hfits)⟩
    · exact ⟨fun hfits => absurd hfull (Nat.not_lt.2 hfits),
        fun hfits => absurd hfull (Nat.not_lt.2 hfits), fun _ => unitOutcome_of_raise hraise⟩

/-- Settles O49: the loop makes no iteration, and the empty stream uses up no draw. -/
theorem bpDecodeOfNoBitsIsTheEmptyText : Obligations.BpDecodeOfNoBitsIsTheEmptyText := by
  intro s hv
  have hzero : s.vbc.toNat = 0 := by rw [hv]; rfl
  have hfits : StreamFits s := by rw [StreamFits, hzero]; exact Nat.zero_le _
  have hdone : bpDecode s = .done { s with acc := [], wpos := 0, bitpos := 0 } := by
    rw [bpDecode, hzero, startDecode_of_fits hfits]
    rfl
  exact congrArg (unitOutcome _) hdone

/-! ### Decoding the codes of a text -/

section Inverse

variable {code : Table Bits} {rev : List RevEntry}

/-- No code starts with a shorter code, so the buffer matches nothing before it holds a whole code
(43_bit_packer.md R162). -/
theorem revLookup_properPrefix (hpf : PrefixFree code) (hinv : IsInverse code rev) {b : Byte}
    {c c' : Bits} (hc : c ≠ []) (hc' : c' ≠ []) (hb : tableGet code b = c ++ c') :
    revLookup rev c = none := by
  cases hfound : revLookup rev c with
  | none => rfl
  | some a =>
    obtain ⟨-, ha⟩ := (hinv c a).1 hfound
    have hne : a ≠ b := by
      rintro rfl
      exact hc' (List.append_right_eq_self.1 (hb.symm.trans ha))
    exact absurd ⟨c', by rw [ha, hb]⟩ (hpf a b hne (by rwa [ha]) (by simp [hb, hc]))

/-- From the middle of a code the greedy decoder reads its rest and emits its symbol. -/
theorem greedy_code_append (hpf : PrefixFree code) (hinv : IsInverse code rev) {b : Byte}
    {acc c : Bits} (hc : c ≠ []) (hb : tableGet code b = acc ++ c) (rest : Bits) :
    greedy rev acc (c ++ rest) = (b :: (greedy rev [] rest).1, (greedy rev [] rest).2) := by
  induction c generalizing acc with
  | nil => exact absurd rfl hc
  | cons v c ih =>
    rw [List.append_cons] at hb
    have hne : acc ++ [v] ≠ [] := by simp
    rw [List.cons_append, greedy]
    by_cases hlast : c = []
    · subst hlast
      rw [List.append_nil] at hb
      rw [(hinv _ b).2 ⟨hne, hb⟩]
      rfl
    · rw [revLookup_properPrefix hpf hinv hne hlast hb]
      exact ih hlast hb

/-- The greedy decoder inverts the concatenation of the codes (43_bit_packer.md R162). -/
theorem greedy_textBits (hpf : PrefixFree code) (hinv : IsInverse code rev) {text : List Byte}
    (hcodes : ∀ b ∈ text, tableGet code b ≠ []) :
    greedy rev [] (textBits code text) = (text, []) := by
  induction text with
  | nil => rfl
  | cons b text ih =>
    obtain ⟨hb, htext⟩ := List.forall_mem_cons.1 hcodes
    rw [textBits_cons, greedy_code_append hpf hinv hb rfl, ih htext]

end Inverse

theorem inputText_length_of_legal {s : State} (hl : s.ilen.toNat ≤ s.params.ibufCap.toNat) :
    s.inputText.length = s.ilen.toNat := by
  rw [State.inputText, State.ibufBytes, readBytes_length, Nat.min_eq_left hl]

/-- Where BP.ENCODE ends without error, every byte has a code and the stream is packed. -/
theorem packed_of_exec {s t : State} (hl : s.ilen.toNat ≤ s.params.ibufCap.toNat)
    (h : exec .bpEncode s = .next t) (ht : t.unitErr = none) :
    (∀ b ∈ s.inputText, tableGet s.code b ≠ []) ∧ ∃ u, t = u.setResult none ∧ Packed s u := by
  have hr : unitOutcome (fun t => t.spoilPayload.spoilPacker.nextDraw) (bpEncode s) = .next t := h
  rcases unitOutcome_next.1 hr with ⟨u, hdone, rfl⟩ | ⟨e, u, -, rfl⟩
  · rcases bpEncode_cases hl with ⟨-, v, hv⟩ | ⟨-, -, v, hv⟩ | ⟨hall, -, v, hv, hp⟩ <;>
      rw [hdone] at hv <;> cases hv
    exact ⟨hall, u, rfl, hp⟩
  · cases ht

/-- Settles O51: on the concatenated codes the greedy decoder gives the text and no bit is left, so
BP.DECODE completes with it. -/
theorem bpDecodeInvertsBpEncode : Obligations.BpDecodeInvertsBpEncode := by
  intro s t hpf hinv hl hroom hexec herr
  obtain ⟨hcodes, u, rfl, hp⟩ := packed_of_exec hl hexec herr
  have hrev : u.rev = s.rev := hp.frame.map State.rev
  have hparams : u.params = s.params := hp.frame.map State.params
  have hlen := inputText_length_of_legal hl
  have hstream : u.vbc.toNat ≤ 8 * u.plen.toNat := by
    rw [hp.plen, ← ceilDiv8_le_iff]
  have hgreedy : greedy u.rev [] (storedBits u) = (s.inputText, []) := by
    rw [hrev, hp.stream, greedy_textBits hpf hinv hcodes]
  obtain ⟨decodes, -, -⟩ := bpDecodeIsTheGreedyDecoder (u.setResult none) hstream
  have hg : greedy (u.setResult none).rev [] (storedBits (u.setResult none)) = (s.inputText, []) :=
    hgreedy
  rw [hg] at decodes
  have hfits : s.inputText.length ≤ (u.setResult none).params.obufCap.toNat := by
    rw [hlen, setResult_params, hparams]
    exact hroom
  obtain ⟨v, hv, hframe, hwpos, hobuf, -⟩ := decodes hfits rfl
  exact ⟨v, hv, by rw [hframe], hwpos.trans hlen, hobuf⟩

end Sys2Proof.Machine

namespace Sys2Proof.Machine

/-! ### The container as the fields that CF.WRITE emits -/

/-- CF.WRITE skips a symbol without a code and emits the entry of every other one (44_container.md
R165). -/
theorem flatten_entryFields (x : Byte × Bits) :
    (entryFields x).flatten = if x.2 = [] then [] else entryBytes x := by
  unfold entryFields
  split
  · rfl
  · rw [entryBytes, List.map_eq_flatMap (f := bitChar), List.flatMap_def]
    rfl

theorem flatten_flatMap_entryFields (xs : List (Byte × Bits)) :
    (xs.flatMap entryFields).flatten = (xs.filter fun x => x.2 != []).flatMap entryBytes := by
  induction xs with
  | nil => rfl
  | cons x xs ih =>
    rw [List.flatMap_cons, List.flatten_append, ih, flatten_entryFields]
    by_cases hx : x.2 = [] <;> simp [hx]

theorem flatten_containerFields (code : Table Bits) (vbc : Word) (payload : List Byte) :
    (containerFields code vbc payload).flatten = containerBytes code vbc payload := by
  have hcount : codeCount code = (presentCodes code).length := rfl
  have hentries := flatten_flatMap_entryFields (entries code)
  rw [containerFields, hcount, List.flatten_append, List.flatten_cons, hentries, containerBytes,
    presentCodes]
  simp

@[simp] theorem bytesU32_length (v : Nat) : (bytesU32 v).length = 4 := rfl

@[simp] theorem entryBytes_length (x : Byte × Bits) : (entryBytes x).length = 2 + x.2.length := by
  rw [entryBytes, List.length_cons, List.length_cons, List.length_map]
  omega

/-- The length of a container (44_container.md R170). -/
theorem containerBytes_length (code : Table Bits) (vbc : Word) (payload : List Byte) :
    (containerBytes code vbc payload).length =
      8 + ((presentCodes code).map fun x => 2 + x.2.length).sum + payload.length := by
  simp only [containerBytes, List.length_append, List.length_flatMap, entryBytes_length,
    bytesU32_length]
  omega

/-! ### CF.WRITE -/

/-- Successive Emits that do not all fit: the first one past the end raises (20_memory.md R69). -/
theorem forEach_emit_of_overflow {fields : List (List Byte)} {s : State}
    (hs : s.wpos ≤ s.params.obufCap.toNat)
    (h : s.params.obufCap.toNat < s.wpos + fields.flatten.length) :
    ∃ t, forEach emit fields s = .raise .outputOverflow t := by
  induction fields generalizing s with
  | nil => exact absurd h (Nat.not_lt.2 hs)
  | cons bs fields ih =>
    rw [List.flatten_cons, List.length_append] at h
    rw [forEach]
    rcases emit_cases bs s with ⟨-, hraise⟩ | ⟨hfits, hdone⟩
    · exact ⟨s, by rw [hraise, raise_bind]⟩
    · rw [hdone, done_bind]
      exact ih hfits (by rw [Nat.add_assoc]; exact h)

theorem cfWrite_of_room {s : State} (h : (containerOf s).length ≤ s.params.obufCap.toNat) :
    cfWrite s = .done { s with
      obuf := s.obuf.writeBytes 0 (containerOf s)
      wpos := (containerOf s).length } := by
  have hfields := flatten_containerFields s.code s.vbc
    (s.payload.readBytes .payload 0 s.plen.toNat)
  rw [cfWrite, forEach_emit_of_room (by rw [hfields, Nat.zero_add]; exact h), hfields, Nat.zero_add]
  rfl

theorem cfWrite_of_overflow {s : State} (h : s.params.obufCap.toNat < (containerOf s).length) :
    ∃ t, cfWrite s = .raise .outputOverflow t := by
  refine forEach_emit_of_overflow (s := { s with wpos := 0 }) (Nat.zero_le _) ?_
  rw [flatten_containerFields, Nat.zero_add]
  exact h

/-- Settles O52: the Emits are one run of bytes, the container, which fits or does not. -/
theorem cfWriteEmitsTheContainer : Obligations.CfWriteEmitsTheContainer := by
  refine ⟨fun s hroom => ?_, fun s hover => unitOutcome_of_raise (cfWrite_of_overflow hover)⟩
  refine ⟨_, congrArg (unitOutcome _) (cfWrite_of_room hroom), rfl, rfl, ?_, ?_, fun a ha => ?_⟩
  · exact (containerBytes_length _ _ _).trans (by rw [readBytes_length])
  · exact readBytes_writeBytes .obuf (containerOf s) s.obuf 0
  · exact read_writeBytes_outside .obuf (containerOf s) s.obuf 0 a
      (.inr (by rw [Nat.zero_add]; exact ha))

end Sys2Proof.Machine

namespace Sys2Proof.Machine

/-! ### What Need still finds of the input -/

/-- ILEN is legal, and the bytes from RPOS up to ILEN are `bs`. -/
structure Unread (s : State) (bs : List Byte) : Prop where
  legal : s.ilen.toNat ≤ s.params.ibufCap.toNat
  ends : s.rpos + bs.length = s.ilen.toNat
  bytes : s.ibuf.readBytes .ibuf s.rpos bs.length = bs

theorem inputText_of_legal {s : State} (hl : s.ilen.toNat ≤ s.params.ibufCap.toNat) :
    s.inputText = s.ibuf.readBytes .ibuf 0 s.ilen.toNat := by
  rw [State.inputText, Nat.min_eq_left hl, State.ibufBytes]

/-- The whole input, at RPOS = 0. -/
theorem unread_inputText {s : State} (hl : s.ilen.toNat ≤ s.params.ibufCap.toNat)
    (rev : List RevEntry) : Unread { s with rpos := 0, rev := rev } s.inputText := by
  have hlen := inputText_length_of_legal hl
  refine ⟨hl, (Nat.zero_add _).trans hlen, ?_⟩
  rw [hlen, inputText_of_legal hl]

namespace Unread

variable {s : State} {b : Byte} {bs xs ys : List Byte} {n : Nat}

theorem split (h : Unread s (xs ++ ys)) :
    s.ibuf.readBytes .ibuf s.rpos xs.length = xs ∧
      s.ibuf.readBytes .ibuf (s.rpos + xs.length) ys.length = ys := by
  have hbytes := h.bytes
  rw [List.length_append, readBytes_append] at hbytes
  exact List.append_inj hbytes (readBytes_length _ _ _ _)

theorem skip (h : Unread s (xs ++ ys)) (hn : xs.length = n) :
    Unread { s with rpos := s.rpos + n } ys := by
  subst hn
  have hends := h.ends
  rw [List.length_append, ← Nat.add_assoc] at hends
  exact ⟨h.legal, hends, h.split.2⟩

/-- `Need(n)` where at least `n` bytes are left (20_memory.md R68). -/
theorem need_front (h : Unread s (xs ++ ys)) (hn : xs.length = n) (k : List Byte → State → Res) :
    need n s k = k xs { s with rpos := s.rpos + n } := by
  have hends := h.ends
  rw [List.length_append] at hends
  rw [need_of_legal n s k (by omega) h.legal, if_neg (by omega), ← hn, h.split.1]

/-- `Need(n)` where fewer than `n` bytes are left (20_memory.md R68). -/
theorem need_of_short (h : Unread s bs) (hn : bs.length < n) (k : List Byte → State → Res) :
    need n s k = .raise .format s := by
  have hends := h.ends
  rw [need_of_legal n s k (by omega) h.legal, if_pos (by omega)]

theorem needByte_head (h : Unread s (b :: bs)) (k : Byte → State → Res) :
    needByte s k = k b { s with rpos := s.rpos + 1 } :=
  h.need_front (xs := [b]) rfl _

theorem needByte_of_nil (h : Unread s []) (k : Byte → State → Res) :
    needByte s k = .raise .format s := h.need_of_short Nat.one_pos _

theorem tail (h : Unread s (b :: bs)) : Unread { s with rpos := s.rpos + 1 } bs :=
  h.skip (xs := [b]) rfl

end Unread

/-! ### One entry of the container -/

@[simp] theorem all_isBitChar_map_bitChar (c : Bits) : (c.map bitChar).all isBitChar = true := by
  rw [List.all_map, List.all_eq_true]
  intro v _
  cases v <;> rfl

@[simp] theorem codeOfChars_map_bitChar (c : Bits) : codeOfChars (c.map bitChar) = c := by
  have hinv : (fun b => b == 0x31#8) ∘ bitChar = id := by
    funext v
    cases v <;> rfl
  rw [codeOfChars, List.map_map, hinv, List.map_id]

/-- An entry that CF.READ refuses once its bytes are there (44_container.md R177). -/
def EntryRefused (rev : List RevEntry) (sym : Byte) (chars : List Byte) : Prop :=
  chars.all isBitChar = false ∨ sym ∈ rev.map RevEntry.sym ∨
    codeOfChars chars ∈ rev.map RevEntry.bits

/-- Everything the checks of one entry can do (44_container.md R171, R177). -/
theorem storeEntry_cases (sym : Byte) (chars : List Byte) (s : State) :
    (EntryRefused s.rev sym chars ∧ storeEntry sym chars s = .raise .format s) ∨
    (¬ EntryRefused s.rev sym chars ∧ storeEntry sym chars s =
      .done { s with rev := s.rev ++ [{ bits := codeOfChars chars, sym := sym }] }) := by
  by_cases hchars : chars.all isBitChar = false
  · exact .inl ⟨.inl hchars, if_pos hchars⟩
  by_cases hsym : revHasSym s.rev sym = true
  · exact .inl ⟨.inr (.inl ((revHasSym_iff _ _).1 hsym)),
      by rw [storeEntry, if_neg hchars, if_pos hsym]⟩
  rw [storeEntry, if_neg hchars, if_neg hsym]
  cases hfound : revLookup s.rev (codeOfChars chars) with
  | some b =>
    obtain ⟨e, he, hbits, -⟩ := exists_mem_of_revLookup hfound
    exact .inl ⟨.inr (.inr (List.mem_map.2 ⟨e, he, hbits⟩)), rfl⟩
  | none =>
    have hbits : codeOfChars chars ∉ s.rev.map RevEntry.bits := by
      simpa using revLookup_eq_none_iff.1 hfound
    exact .inr ⟨by rw [EntryRefused, ← revHasSym_iff]; tauto, rfl⟩

section Entry

variable {s : State} {sym len : Byte} {chars ys bad tail : List Byte} {es : List (Byte × Bits)}

/-- An entry whose codeLen is not 0 and whose bytes are all there (44_container.md R173). -/
theorem readEntry_of_chars (h : Unread s (sym :: len :: (chars ++ ys)))
    (hlen : chars.length = len.toNat) (hne : chars ≠ []) :
    readEntry s = storeEntry sym chars { s with rpos := s.rpos + (2 + chars.length) } := by
  have hpos : len ≠ 0#8 := by
    rintro rfl
    exact hne (List.length_eq_zero_iff.1 hlen)
  rw [readEntry, h.needByte_head, h.tail.needByte_head, if_neg hpos,
    h.tail.tail.need_front hlen, hlen, ← Nat.add_assoc]

/-- An entry with codeLen 0 (30_encoding.md R85 (e)). -/
theorem readEntry_of_zero (h : Unread s (sym :: 0#8 :: ys)) :
    ∃ t, readEntry s = .raise .format t := by
  rw [readEntry, h.needByte_head, h.tail.needByte_head, if_pos rfl]
  exact ⟨_, rfl⟩

/-- The input ends inside the entry (44_container.md R173). -/
theorem readEntry_of_cut (h : Unread s tail) (hcut : CutEntry tail) :
    ∃ t, readEntry s = .raise .format t := by
  rcases hcut with hshort | ⟨sym, len, chars, rfl, hlen⟩
  · match tail, hshort with
    | [], _ => exact ⟨_, h.needByte_of_nil _⟩
    | [sym], _ =>
      rw [readEntry, h.needByte_head, h.tail.needByte_of_nil]
      exact ⟨_, rfl⟩
  · have hpos : len ≠ 0#8 := by
      rintro rfl
      exact Nat.not_lt_zero _ hlen
    rw [readEntry, h.needByte_head, h.tail.needByte_head, if_neg hpos,
      h.tail.tail.need_of_short hlen]
    exact ⟨_, rfl⟩

theorem readEntry_of_refused (h : Unread s (sym :: len :: (chars ++ ys)))
    (hlen : chars.length = len.toNat) (hne : chars ≠ []) (href : EntryRefused s.rev sym chars) :
    ∃ t, readEntry s = .raise .format t := by
  rw [readEntry_of_chars h hlen hne]
  rcases storeEntry_cases sym chars { s with rpos := s.rpos + (2 + chars.length) } with
    ⟨-, hraise⟩ | ⟨hok, -⟩
  · exact ⟨_, hraise⟩
  · exact absurd href hok

theorem revOf_map_sym (es : List (Byte × Bits)) :
    (revOf es).map RevEntry.sym = es.map Prod.fst := by simp [revOf]

theorem revOf_map_bits (es : List (Byte × Bits)) :
    (revOf es).map RevEntry.bits = es.map Prod.snd := by simp [revOf]

theorem codeLen_toNat {c : Bits} (hfit : c.length ≤ 255) :
    (c.map bitChar).length = (BitVec.ofNat 8 c.length).toNat := by
  rw [List.length_map, BitVec.toNat_ofNat, Nat.mod_eq_of_lt (by omega)]

/-- Each kind of bad entry is refused (30_encoding.md R85 (e) to (h)). -/
theorem readEntry_of_bad (h : Unread s (bad ++ ys)) (hrev : s.rev = revOf es)
    (hbad : BadEntry es bad) : ∃ t, readEntry s = .raise .format t := by
  rcases hbad with ⟨sym, rfl⟩ | ⟨sym, len, chars, rfl, hlen, x, hx, hx0, hx1⟩ |
    ⟨sym, c, rfl, hne, hfit, e, he, hsame⟩
  · exact readEntry_of_zero h
  · refine readEntry_of_refused h hlen (List.ne_nil_of_mem hx) (.inl ?_)
    exact List.all_eq_false.2 ⟨x, hx, by simp [isBitChar, hx0, hx1]⟩
  · refine readEntry_of_refused h (codeLen_toNat hfit) (by simpa using hne) (.inr ?_)
    rw [hrev, revOf_map_sym, revOf_map_bits, codeOfChars_map_bitChar]
    rcases hsame with rfl | rfl
    · exact .inl (List.mem_map.2 ⟨e, he, rfl⟩)
    · exact .inr (List.mem_map.2 ⟨e, he, rfl⟩)

end Entry

/-! ### Well-formed entries -/

namespace GoodEntries

variable {es es' : List (Byte × Bits)} {x : Byte × Bits}

theorem sublist (h : GoodEntries es) (hs : es'.Sublist es) : GoodEntries es' := by
  obtain ⟨hsyms, hcodes, hfit⟩ := h
  exact ⟨hsyms.sublist (hs.map _), hcodes.sublist (hs.map _), fun x hx => hfit x (hs.subset hx)⟩

theorem fits (h : GoodEntries es) (hx : x ∈ es) :
    x.2 ≠ [] ∧ x.2.length ≤ 255 := h.2.2 x hx

/-- There are 256 symbols, so no more entries than that. -/
theorem length_le (h : GoodEntries es) : es.length ≤ 256 := by
  have hsub := List.subperm_of_subset h.1 fun b _ => mem_symbols b
  simpa using hsub.length_le

/-- CF.READ does not refuse the next well-formed entry. -/
theorem not_refused (h : GoodEntries (es ++ [x])) :
    ¬ EntryRefused (revOf es) x.1 (x.2.map bitChar) := by
  obtain ⟨hsyms, hcodes, -⟩ := h
  rw [List.map_append] at hsyms hcodes
  have hsym := (List.nodup_append'.1 hsyms).2.2
  have hcode := (List.nodup_append'.1 hcodes).2.2
  rw [EntryRefused, revOf_map_sym, revOf_map_bits, codeOfChars_map_bitChar,
    all_isBitChar_map_bitChar]
  rintro (hchars | hmem | hmem)
  · cases hchars
  · exact hsym hmem (List.mem_singleton.2 rfl)
  · exact hcode hmem (List.mem_singleton.2 rfl)

/-- Every code of well-formed entries is looked up to its symbol (42_code_generator.md R144). -/
theorem revLookup_code (h : GoodEntries es) (hx : x ∈ es) :
    revLookup (revOf es) x.2 = some x.1 := by
  refine revLookup_of_mem (e := ⟨x.2, x.1⟩) (mem_revOf.2 hx) rfl fun e he hbits => ?_
  exact congrArg Prod.fst (List.inj_on_of_nodup_map h.2.1 (mem_revOf.1 he) hx hbits)

end GoodEntries

/-- The entries of a table of distinct codes that fit their length field. -/
theorem goodEntries_presentCodes {code : Table Bits} (hdist : CodesDistinct code)
    (hfit : CodesFit code) : GoodEntries (presentCodes code) := by
  have hsyms : ((presentCodes code).map Prod.fst).Nodup := by
    refine List.Nodup.sublist ((List.filter_sublist).map Prod.fst) ?_
    rw [entries_symbols]
    exact symbols_nodup
  have hcodes : ((presentCodes code).map Prod.snd).Nodup := by
    rw [← revOf_map_bits]
    exact bitsDistinct_invertedTable.2 hdist
  refine ⟨hsyms, hcodes, fun x hx => ?_⟩
  obtain ⟨hcode, hne⟩ := mem_presentCodes.1 hx
  exact ⟨hne, hcode ▸ hfit x.1⟩

/-! ### The state after dictSize and some entries -/

/-- The state of CF.READ after dictSize and the entries `es` (44_container.md R171). -/
def State.afterEntries (s : State) (es : List (Byte × Bits)) : State :=
  { s with rpos := 4 + (es.flatMap entryBytes).length, rev := revOf es }

section Entries

variable {s : State} {old es : List (Byte × Bits)} {x : Byte × Bits} {ys : List Byte} {d : Nat}

theorem Unread.afterEntries_append (h : Unread (s.afterEntries old) (es.flatMap entryBytes ++ ys)) :
    Unread (s.afterEntries (old ++ es)) ys := by
  obtain ⟨hlegal, hends, hbytes⟩ := h.skip rfl
  have hrpos : (s.afterEntries (old ++ es)).rpos =
      (s.afterEntries old).rpos + (es.flatMap entryBytes).length := by
    simp only [State.afterEntries, List.flatMap_append, List.length_append, Nat.add_assoc]
  exact ⟨hlegal, by rw [hrpos]; exact hends, by rw [hrpos]; exact hbytes⟩

theorem readEntry_of_good (h : Unread (s.afterEntries old) (entryBytes x ++ ys))
    (hgood : GoodEntries (old ++ [x])) :
    readEntry (s.afterEntries old) = .done (s.afterEntries (old ++ [x])) := by
  obtain ⟨hne, hfit⟩ := hgood.fits (x := x) (by simp)
  rw [readEntry_of_chars h (codeLen_toNat hfit) (by simpa using hne)]
  rcases storeEntry_cases x.1 (x.2.map bitChar) { s.afterEntries old with
    rpos := (s.afterEntries old).rpos + (2 + (x.2.map bitChar).length) } with
    ⟨href, -⟩ | ⟨-, hdone⟩
  · exact absurd href hgood.not_refused
  · rw [hdone]
    simp [State.afterEntries, revOf, Nat.add_assoc]

/-- The loop of step 2 on well-formed entries, in any order (44_container.md R173; 30_encoding.md
R81). -/
theorem readEntries_of_good (h : Unread (s.afterEntries old) (es.flatMap entryBytes ++ ys))
    (hgood : GoodEntries (old ++ es)) (n : Nat) :
    readEntries (es.length + n) (s.afterEntries old) =
      readEntries n (s.afterEntries (old ++ es)) := by
  induction es generalizing old with
  | nil => rw [List.append_nil, List.length_nil, Nat.zero_add]
  | cons x es ih =>
    rw [List.flatMap_cons, List.append_assoc] at h
    rw [List.append_cons] at hgood ⊢
    have hnext : Unread (s.afterEntries (old ++ [x])) (es.flatMap entryBytes ++ ys) :=
      Unread.afterEntries_append (es := [x]) (by simpa using h)
    rw [List.length_cons, Nat.add_right_comm, readEntries,
      readEntry_of_good h (hgood.sublist (List.sublist_append_left _ _)), done_bind, ih hnext hgood]

theorem unread_afterEntries_nil (hl : s.ilen.toNat ≤ s.params.ibufCap.toNat)
    (hin : s.inputText = bytesU32 d ++ ys) : Unread (s.afterEntries []) ys := by
  have hall := unread_inputText hl []
  rw [hin] at hall
  exact hall.skip rfl

/-- Step 1 where four bytes are there (44_container.md R172). -/
theorem readHeader_of_dictSize (hl : s.ilen.toNat ≤ s.params.ibufCap.toNat)
    (hin : s.inputText = bytesU32 d ++ ys) : readHeader s = .done (s.afterEntries []) := by
  have hall := unread_inputText hl []
  rw [hin] at hall
  exact hall.need_front rfl _

/-- Step 1 where they are not (44_container.md R172). -/
theorem readHeader_of_short (h : s.ilen.toNat < 4) : ∃ t, readHeader s = .raise .format t := by
  refine ⟨{ s with rpos := 0, rev := [] }, ?_⟩
  rw [readHeader, need, if_neg (by decide), if_pos (by simpa using h)]

theorem dictSize_of_inputText (hl : s.ilen.toNat ≤ s.params.ibufCap.toNat)
    (hin : s.inputText = bytesU32 d ++ ys) (hd : d < 2 ^ 32) :
    dictSize (s.afterEntries es) = d := by
  have hall := unread_inputText hl []
  rw [hin] at hall
  exact (congrArg u32 hall.split.1).trans (u32_bytesU32 hd)

/-- CF.READ up to the end of well-formed entries, where dictSize counts `n` more. -/
theorem readBody_of_good (hl : s.ilen.toNat ≤ s.params.ibufCap.toNat) (hgood : GoodEntries es)
    {n : Nat} (hd : es.length + n < 2 ^ 32)
    (hin : s.inputText = bytesU32 (es.length + n) ++ es.flatMap entryBytes ++ ys) :
    Unread (s.afterEntries es) ys ∧ readBody (s.afterEntries []) =
      (readEntries n (s.afterEntries es)).bind readPayload := by
  rw [List.append_assoc] at hin
  have h := unread_afterEntries_nil hl hin
  refine ⟨h.afterEntries_append, ?_⟩
  rw [readBody, dictSize_of_inputText hl hin hd, readEntries_of_good h hgood n]
  rfl

end Entries

end Sys2Proof.Machine

namespace Sys2Proof.Machine

/-! ### validBitCount and the payload -/

theorem word_of_u32_bytesU32 (vbc : Word) :
    BitVec.ofNat 32 (u32 (bytesU32 vbc.toNat)) = vbc := by
  rw [u32_bytesU32 vbc.isLt, BitVec.ofNat_toNat, BitVec.setWidth_eq]

section Payload

variable {s : State} {vbc : Word} {payload ys tail : List Byte}

/-- Steps 3 and 4 where all bytes are there (44_container.md R174, R175). -/
theorem readPayload_of_whole (h : Unread s (bytesU32 vbc.toNat ++ payload ++ ys))
    (hp : payload.length = ceilDiv8 vbc.toNat) :
    readPayload s = .done { s with
      rpos := s.rpos + (4 + payload.length)
      vbc := vbc
      plen := BitVec.ofNat 32 payload.length
      payload := s.payload.writeBytes 0 payload } := by
  rw [List.append_assoc] at h
  have hrest : Unread { s with
      rpos := s.rpos + 4
      vbc := vbc
      plen := BitVec.ofNat 32 payload.length } (payload ++ ys) := { h.skip (n := 4) rfl with }
  rw [readPayload, h.need_front (n := 4) rfl, word_of_u32_bytesU32, u32_bytesU32 vbc.isLt, ← hp,
    hrest.need_front rfl, ← Nat.add_assoc]

/-- Steps 3 and 4 where the input ends inside one of them (44_container.md R174, R175). -/
theorem readPayload_of_cut (h : Unread s tail) (hcut : CutTail tail) :
    ∃ t, readPayload s = .raise .format t := by
  rcases hcut with hshort | ⟨vbc, payload, hlt, rfl, hp⟩
  · exact ⟨s, h.need_of_short hshort _⟩
  · have hrest : Unread { s with
        rpos := s.rpos + 4
        vbc := BitVec.ofNat 32 vbc
        plen := BitVec.ofNat 32 (ceilDiv8 vbc) } payload := { h.skip (n := 4) rfl with }
    rw [readPayload, h.need_front (n := 4) rfl, u32_bytesU32 hlt, hrest.need_of_short hp]
    exact ⟨_, rfl⟩

end Payload

/-! ### CF.READ of a whole container -/

/-- The state that CF.READ completes with (44_container.md R171, R178). -/
def State.afterContainer (s : State) (es : List (Byte × Bits)) (vbc : Word)
    (payload : List Byte) : State :=
  { s.afterEntries es with
    rpos := 4 + (es.flatMap entryBytes).length + (4 + payload.length)
    vbc := vbc
    plen := BitVec.ofNat 32 payload.length
    payload := s.payload.writeBytes 0 payload }

section Whole

variable {s : State} {es : List (Byte × Bits)} {vbc : Word} {payload : List Byte}

theorem readBody_of_container (hl : s.ilen.toNat ≤ s.params.ibufCap.toNat)
    (hin : IsContainer s.inputText es vbc payload) :
    readBody (s.afterEntries []) = .done (s.afterContainer es vbc payload) := by
  obtain ⟨hgood, hp, rest, hin⟩ := hin
  have hcount := hgood.length_le
  rw [List.append_assoc _ payload, List.append_assoc _ (bytesU32 vbc.toNat)] at hin
  obtain ⟨hunread, hbody⟩ := readBody_of_good hl hgood (n := 0) (by omega) hin
  rw [← List.append_assoc] at hunread
  rw [hbody, readEntries, done_bind, readPayload_of_whole hunread hp]
  rfl

theorem cfRead_of_container (hl : s.ilen.toNat ≤ s.params.ibufCap.toNat)
    (hin : IsContainer s.inputText es vbc payload) :
    cfRead s = .done (s.afterContainer es vbc payload) := by
  have hbody := readBody_of_container hl hin
  obtain ⟨-, -, rest, hin⟩ := hin
  simp only [List.append_assoc] at hin
  rw [cfRead, readHeader_of_dictSize hl hin, done_bind, hbody]

/-- What the payload of a container leaves in PAYLOAD and PLEN (44_container.md R175). -/
theorem afterContainer_payload (hp : payload.length = ceilDiv8 vbc.toNat) :
    (s.afterContainer es vbc payload).plen.toNat = payload.length ∧
      (s.afterContainer es vbc payload).payload.readBytes .payload 0 payload.length = payload ∧
      PayloadKeptBeyond s (s.afterContainer es vbc payload) := by
  have hplen : (s.afterContainer es vbc payload).plen.toNat = payload.length := by
    rw [hp]
    exact (congrArg (fun n => (BitVec.ofNat 32 n).toNat) hp).trans (toNat_ceilDiv8 vbc.isLt)
  refine ⟨hplen, readBytes_writeBytes .payload payload s.payload 0, fun a ha => ?_⟩
  rw [hplen] at ha
  exact read_writeBytes_outside .payload payload s.payload 0 a (.inr (by omega))

end Whole

/-- The container that CF.WRITE makes of a table of distinct codes is one that CF.READ accepts, with
whatever follows it (44_container.md R168, R179). -/
theorem isContainer_containerOf {c : State} (hdist : CodesDistinct c.code) (hfit : CodesFit c.code)
    (hplen : c.plen.toNat = ceilDiv8 c.vbc.toNat) (rest : List Byte) :
    IsContainer (containerOf c ++ rest) (presentCodes c.code) c.vbc
      (c.payload.readBytes .payload 0 c.plen.toNat) :=
  ⟨goodEntries_presentCodes hdist hfit, (readBytes_length _ _ _ _).trans hplen, rest, rfl⟩

/-- What CF.READ makes of CF.WRITE's container (44_container.md R180). -/
theorem afterContainer_containerOf (c s : State) :
    s.afterContainer (presentCodes c.code) c.vbc (c.payload.readBytes .payload 0 c.plen.toNat) =
      { s with
        rev := invertedTable c.code
        vbc := c.vbc
        payload := s.payload.writeBytes 0 (c.payload.readBytes .payload 0 c.plen.toNat)
        plen := c.plen
        rpos := (containerOf c).length } := by
  have hplen : BitVec.ofNat 32 (c.payload.readBytes .payload 0 c.plen.toNat).length = c.plen := by
    rw [readBytes_length, BitVec.ofNat_toNat, BitVec.setWidth_eq]
  have hrpos : 4 + ((presentCodes c.code).flatMap entryBytes).length +
      (4 + (c.payload.readBytes .payload 0 c.plen.toNat).length) = (containerOf c).length := by
    simp only [containerOf, containerBytes, List.length_append, bytesU32_length, Nat.add_assoc]
  rw [State.afterContainer, hplen, hrpos]
  rfl

/-- Settles O53: a container, its entries in any order, is read entry by entry, and CF.WRITE's is one
with the entries of the inverse table. -/
theorem cfReadInvertsCfWrite : Obligations.CfReadInvertsCfWrite := by
  refine ⟨fun c s hdist hfit hplen hl hlen hin => ?written,
    fun s es vbc payload ⟨hgood, hp, hbytes⟩ hl => ?anyOrder⟩
  case written =>
    obtain ⟨n, hn⟩ := Nat.exists_eq_add_of_le hlen
    have htext := inputText_of_legal hl
    rw [hn, readBytes_append, hin] at htext
    have hcont := isContainer_containerOf hdist hfit hplen
      (s.ibuf.readBytes .ibuf (0 + (containerOf c).length) n)
    rw [← htext] at hcont
    have hread := cfRead_of_container hl hcont
    obtain ⟨-, hstored, hkept⟩ := afterContainer_payload (s := s) (es := presentCodes c.code)
      (vbc := c.vbc) ((readBytes_length .payload c.payload 0 c.plen.toNat).trans hplen)
    rw [readBytes_length] at hstored
    rw [afterContainer_containerOf] at hread hstored hkept
    exact ⟨_, congrArg (unitOutcome _) hread, rfl, hstored, hkept⟩
  case anyOrder =>
    obtain ⟨hplen, hstored, hkept⟩ := afterContainer_payload (s := s) (es := es) hp
    rw [← hplen] at hstored
    exact ⟨_, congrArg (unitOutcome _) (cfRead_of_container hl ⟨hgood, hp, hbytes⟩), rfl, rfl,
      hplen.trans hp, fun x hx => hgood.revLookup_code hx, List.length_map _, hstored, hkept⟩

/-! ### CF.READ of a bad or a truncated container -/

section Faulty

variable {s : State}

/-- An entry that dictSize counts and CF.READ refuses ends it (44_container.md R173, R177). -/
theorem cfRead_of_refused_entry {es : List (Byte × Bits)} {tail : List Byte} {d : Nat}
    (hl : s.ilen.toNat ≤ s.params.ibufCap.toNat) (hgood : GoodEntries es) (hmore : es.length < d)
    (hd : d < 2 ^ 32) (hin : s.inputText = bytesU32 d ++ es.flatMap entryBytes ++ tail)
    (hentry : Unread (s.afterEntries es) tail →
      ∃ t, readEntry (s.afterEntries es) = .raise .format t) :
    ∃ t, cfRead s = .raise .format t := by
  obtain ⟨n, rfl⟩ := Nat.exists_eq_add_of_lt hmore
  rw [Nat.add_assoc] at hd hin
  obtain ⟨hunread, hbody⟩ := readBody_of_good hl hgood hd hin
  obtain ⟨t, ht⟩ := hentry hunread
  rw [List.append_assoc] at hin
  rw [cfRead, readHeader_of_dictSize hl hin, done_bind, hbody, readEntries, ht]
  exact ⟨t, rfl⟩

theorem cfRead_of_cut_tail {es : List (Byte × Bits)} {tail : List Byte}
    (hl : s.ilen.toNat ≤ s.params.ibufCap.toNat) (hgood : GoodEntries es) (hcut : CutTail tail)
    (hin : s.inputText = bytesU32 es.length ++ es.flatMap entryBytes ++ tail) :
    ∃ t, cfRead s = .raise .format t := by
  have hcount := hgood.length_le
  obtain ⟨hunread, hbody⟩ := readBody_of_good hl hgood (n := 0) (by omega) hin
  rw [List.append_assoc] at hin
  rw [cfRead, readHeader_of_dictSize hl hin, done_bind, hbody, readEntries, done_bind]
  exact readPayload_of_cut hunread hcut

theorem cfRead_of_short (h : s.ilen.toNat < 4) : ∃ t, cfRead s = .raise .format t := by
  obtain ⟨t, ht⟩ := readHeader_of_short h
  exact ⟨t, by rw [cfRead, ht, raise_bind]⟩

end Faulty

/-! ### Where a truncated container ends -/

theorem cutEntry_take {x : Byte × Bits} {n : Nat} (hfit : x.2.length ≤ 255)
    (hn : n < (entryBytes x).length) : CutEntry ((entryBytes x).take n) := by
  match n, hn with
  | 0, _ => exact .inl Nat.two_pos
  | 1, _ => exact .inl Nat.one_lt_two
  | n + 2, hn =>
    refine .inr ⟨_, _, (x.2.map bitChar).take n, rfl, ?_⟩
    rw [entryBytes_length] at hn
    rw [← codeLen_toNat hfit, List.length_take, List.length_map]
    omega

/-- Not all of the entries' bytes: some whole entries, and the beginning of the next. -/
theorem take_flatMap_entryBytes {es : List (Byte × Bits)} {n : Nat}
    (hfit : ∀ x ∈ es, x.2.length ≤ 255) (hn : n < (es.flatMap entryBytes).length) :
    ∃ (es' : List (Byte × Bits)) (tail : List Byte), es'.Sublist es ∧ es'.length < es.length ∧
      CutEntry tail ∧ (es.flatMap entryBytes).take n = es'.flatMap entryBytes ++ tail := by
  induction es generalizing n with
  | nil => exact absurd hn (Nat.not_lt_zero n)
  | cons x es ih =>
    obtain ⟨hx, hes⟩ := List.forall_mem_cons.1 hfit
    rw [List.flatMap_cons, List.length_append] at hn
    rw [List.flatMap_cons, List.take_append]
    by_cases hcut : n < (entryBytes x).length
    · refine ⟨[], _, List.nil_sublist _, Nat.succ_pos _, cutEntry_take hx hcut, ?_⟩
      rw [Nat.sub_eq_zero_of_le (Nat.le_of_lt hcut), List.take_zero, List.append_nil]
      rfl
    · obtain ⟨es', tail, hsub, hlen, htail, htake⟩ :=
        ih hes (n := n - (entryBytes x).length) (by omega)
      refine ⟨x :: es', tail, hsub.cons_cons x, Nat.succ_lt_succ hlen, htail, ?_⟩
      rw [htake, List.take_of_length_le (Nat.le_of_not_lt hcut), List.flatMap_cons,
        List.append_assoc]

/-- Not all of validBitCount and the payload. -/
theorem cutTail_take {vbc : Word} {payload : List Byte} {n : Nat}
    (hp : payload.length = ceilDiv8 vbc.toNat) (hn : n < 4 + payload.length) :
    CutTail ((bytesU32 vbc.toNat ++ payload).take n) := by
  by_cases hcut : n < 4
  · exact .inl (lt_of_le_of_lt (List.length_take_le _ _) hcut)
  · refine .inr ⟨vbc.toNat, payload.take (n - 4), vbc.isLt, ?_, ?_⟩
    · rw [List.take_append, List.take_of_length_le (Nat.le_of_not_lt hcut), bytesU32_length]
    · rw [List.length_take]
      omega

/-- A truncated container that has its dictSize ends inside an entry that dictSize counts, or after
all of them (44_container.md R176). -/
theorem take_container_cases {es : List (Byte × Bits)} {vbc : Word} {payload : List Byte} {n : Nat}
    (hgood : GoodEntries es) (hp : payload.length = ceilDiv8 vbc.toNat) (h4 : 4 ≤ n)
    (hn : n < (bytesU32 es.length ++ es.flatMap entryBytes ++ bytesU32 vbc.toNat ++
      payload).length) :
    ∃ es' tail, GoodEntries es' ∧
      (bytesU32 es.length ++ es.flatMap entryBytes ++ bytesU32 vbc.toNat ++ payload).take n =
        bytesU32 es.length ++ es'.flatMap entryBytes ++ tail ∧
      (es'.length < es.length ∧ CutEntry tail ∨ es' = es ∧ CutTail tail) := by
  simp only [List.length_append, bytesU32_length] at hn
  rw [List.append_assoc, List.append_assoc, List.take_append,
    List.take_of_length_le (l := bytesU32 es.length) h4, List.take_append, bytesU32_length]
  by_cases hcut : n - 4 < (es.flatMap entryBytes).length
  · obtain ⟨es', tail, hsub, hlen, htail, htake⟩ :=
      take_flatMap_entryBytes (fun x hx => (hgood.fits hx).2) hcut
    refine ⟨es', tail, hgood.sublist hsub, ?_, .inl ⟨hlen, htail⟩⟩
    rw [htake, Nat.sub_eq_zero_of_le (Nat.le_of_lt hcut), List.take_zero, List.append_nil,
      List.append_assoc]
  · have htail := cutTail_take hp (n := n - 4 - (es.flatMap entryBytes).length) (by omega)
    refine ⟨es, _, hgood, ?_, .inr ⟨rfl, htail⟩⟩
    rw [List.take_of_length_le (Nat.le_of_not_lt hcut), List.append_assoc]

/-- CF.READ of a truncated container (44_container.md R176). -/
theorem cfRead_of_truncated {c s : State} (hdist : CodesDistinct c.code) (hfit : CodesFit c.code)
    (hplen : c.plen.toNat = ceilDiv8 c.vbc.toNat) (hl : s.ilen.toNat ≤ s.params.ibufCap.toNat)
    (hcut : s.ilen.toNat < (containerOf c).length)
    (hin : s.inputText = (containerOf c).take s.ilen.toNat) :
    ∃ t, cfRead s = .raise .format t := by
  by_cases h4 : s.ilen.toNat < 4
  · exact cfRead_of_short h4
  have hgood := goodEntries_presentCodes hdist hfit
  have hcount := hgood.length_le
  obtain ⟨es, tail, hes, htake, ⟨hmore, htail⟩ | ⟨rfl, htail⟩⟩ := take_container_cases hgood
    ((readBytes_length _ _ _ _).trans hplen) (Nat.le_of_not_lt h4) hcut
  · exact cfRead_of_refused_entry hl hes hmore (by omega) (hin.trans htake) fun h =>
      readEntry_of_cut h htail
  · exact cfRead_of_cut_tail hl hgood htail (hin.trans htake)

/-- Settles O54: each fault is met by the first Need or check that it concerns, and a truncated
container ends inside dictSize, an entry, validBitCount or the payload. -/
theorem aTruncatedContainerIsAFormatError : Obligations.ATruncatedContainerIsAFormatError := by
  refine ⟨?properPrefix, ?badEntry, fun s h => unitOutcome_of_raise (cfRead_of_short h), ?cutEntry,
    ?cutTail⟩
  case properPrefix =>
    intro c s hdist hfit hplen hl hcut hin
    exact unitOutcome_of_raise
      (cfRead_of_truncated hdist hfit hplen hl hcut ((inputText_of_legal hl).trans hin))
  case badEntry =>
    intro s es bad rest d hgood hbad hmore hd hl hin
    rw [List.append_assoc _ bad] at hin
    exact unitOutcome_of_raise <| cfRead_of_refused_entry hl hgood hmore hd hin fun h =>
      readEntry_of_bad h rfl hbad
  case cutEntry =>
    intro s es tail d hgood hcut hmore hd hl hin
    exact unitOutcome_of_raise <| cfRead_of_refused_entry hl hgood hmore hd hin fun h =>
      readEntry_of_cut h hcut
  case cutTail =>
    intro s es tail hgood hcut hl hin
    exact unitOutcome_of_raise (cfRead_of_cut_tail hl hgood hcut hin)

end Sys2Proof.Machine

namespace Sys2Proof.Machine

/-! ### Turns of the engine with nothing outside (45_top_level.md R195) -/

theorem run_of_next {k : Nat} {s t : State} (h : step s = .next t) :
    Host.Core.run core (k + 1) s = Host.Core.run core k t := by
  have hcore : core.step s = .next t := h
  simp only [Host.Core.run, hcore]

theorem run_of_fault {k : Nat} {s : State} {f : Fault} (h : step s = .fault f) :
    Host.Core.run core (k + 1) s = .fault f := by
  have hcore : core.step s = .fault f := h
  simp only [Host.Core.run, hcore]

theorem step_of_no_input {s : State} (hin : s.inputs = []) : step s = engineTurn s := by
  rw [step, advance, hin]

theorem step_of_writeCmd {s : State} {c : Byte} {rest : List Input} (hb : s.busy = false)
    (hin : s.inputs = .writeCmd c :: rest) :
    step s = commandOutcome (issue c { s with inputs := rest }) := by
  rw [step, advance, hin]
  exact if_neg (by simp [hb])

/-- An idle machine with no input stays as it is. -/
theorem run_idle (k : Nat) {s : State} (hb : s.busy = false) (hin : s.inputs = []) :
    Host.Core.run core k s = .next s := by
  induction k with
  | zero => rfl
  | succ k ih =>
    have hstep : step s = .next s := by rw [step_of_no_input hin, engineTurn, if_neg (by simp [hb])]
    rw [run_of_next hstep, ih]

theorem abort_inputs (e : Err) (s : State) : (abort e s).inputs = s.inputs :=
  (abort_beyondCommands e (Agrees.refl _ s)).map State.inputs

/-- A step that is the operation `r`, where the steps after it are the operations `rest`: the abort of
an error in `r` leaves an idle machine, which stays as it is. -/
theorem run_of_command {k : Nat} {s : State} {r : Res} {rest : State → Res}
    (hstep : step s = commandOutcome r)
    (hends : r.Ends (fun t => Host.Core.run core k t = commandOutcome (rest t))
      fun u => u.inputs = []) :
    Host.Core.run core (k + 1) s = commandOutcome (r.bind rest) := by
  cases r with
  | done t => exact (run_of_next hstep).trans hends
  | raise e u => exact (run_of_next hstep).trans (run_idle k rfl ((abort_inputs e u).trans hends))
  | stop f => exact run_of_fault hstep

/-- From phase `p` of the command `o`, with no input, `k` turns of the engine are the operations
`rest` in one step. -/
def RunsAs (k : Nat) (o : TopOp) (p : Phase) (rest : State → Res) : Prop :=
  ∀ s, RunningAt o p s → s.inputs = [] → Host.Core.run core k s = commandOutcome (rest s)

theorem enginePart_inputs {s : State} (hb : s.busy = true) :
    (enginePart s).Ends (fun t => t.inputs = s.inputs) fun _ => True := by
  have kept {p : Phase} {r : Res} (hr : r.Holds (Keeps s)) :
      (thenPhase p r).Ends (fun t => t.inputs = s.inputs) fun _ => True :=
    ends_thenPhase (ends_top_of_holds hr fun _ hk => hk.inputs)
  have written : (writePart s).Ends (fun t => t.inputs = s.inputs) fun _ => True :=
    ends_thenPhase (ends_bind (ends_top_of_holds (cfWrite_keeps s) fun _ hk => hk.inputs)
      fun _ ht => ht)
  exact enginePart_ends hb (fun _ => kept (fcCount_keeps s)) (fun _ => kept (tbBuild_keeps s))
    (fun _ => kept (keeps_bind (cgGen_keeps s) cgInvert_keeps)) (fun _ => kept (bpEncode_keeps s))
    (fun _ => written) (fun _ => kept (readHeader_keeps s)) (fun _ => kept (readBody_keeps s))
    (fun _ => kept (bpDecode_keeps s)) (fun _ => rfl) rfl

/-- One more turn in front runs the part of its phase. -/
theorem RunsAs.part {k : Nat} {o : TopOp} {p p' : Phase} {part rest : State → Res}
    (h : RunsAs k o p' rest) (hp : Advances o p p' part) :
    RunsAs (k + 1) o p fun s => (part s).bind rest := by
  intro s hs hin
  obtain ⟨hpart, hends⟩ := hp s hs
  have hinputs := enginePart_inputs hs.busy
  rw [hpart] at hinputs
  refine run_of_command ?_ (ends_mono (ends_and hends hinputs)
    (fun t ⟨ht, hin'⟩ => h t ht (hin'.trans hin)) fun u ⟨hk, _⟩ => hk.inputs.trans hin)
  rw [step_of_no_input hin, engineTurn, if_pos hs.busy, hpart]

theorem runsAs_finish {o : TopOp} (ho : o ≠ .idle) : RunsAs 1 o .written finishPart := by
  intro s hs hin
  have hstep : step s = .next s.complete := by
    rw [step_of_no_input hin, engineTurn, if_pos hs.busy, enginePart_written ho hs]
    rfl
  exact run_of_next hstep

theorem runsAs_compressChain : RunsAs 6 .compress .idle compressChain := by
  have turns := runsAs_finish (o := .compress) (by decide)
    |>.part writePart_advances |>.part packPart_advances |>.part codePart_advances
    |>.part treePart_advances |>.part countPart_advances
  intro s hs hin
  refine (turns s hs hin).trans (congrArg commandOutcome ?_)
  simp only [compressChain, bind_assoc]

theorem runsAs_decompressChain : RunsAs 5 .decompress .idle decompressChain := by
  have turns := runsAs_finish (o := .decompress) (by decide)
    |>.part lengthPart_advances |>.part bitsPart_advances |>.part tablePart_advances
    |>.part headerPart_advances
  intro s hs hin
  refine (turns s hs hin).trans (congrArg commandOutcome ?_)
  simp only [decompressChain, bind_assoc]

/-- Writing the command to CMD and letting the engine take the turns of its chain is the command in
one step. -/
theorem run_writeCmd {k : Nat} {c : Byte} {o : TopOp} {chain : State → Res} {s : State}
    (hc : commandOf c = some o) (hchain : RunsAs k o .idle chain) (hb : s.busy = false)
    (hp : s.phase = .idle) :
    Host.Core.run core (k + 1) { s with inputs := [.writeCmd c] } =
      commandOutcome ((issue c { s with inputs := [] }).bind chain) := by
  refine run_of_command (step_of_writeCmd hb rfl) ?_
  have hrun := issue_runningAt (s := { s with inputs := [] }) hc hp
  rcases issue_cases c { s with inputs := [] } with ⟨-, h⟩ | ⟨_, -, -, h⟩ | ⟨_, -, -, h⟩ <;>
    rw [h] at hrun ⊢
  · rfl
  · rfl
  · exact hchain _ hrun rfl

theorem exec_compress_of_idle {s : State} (hb : s.busy = false) :
    exec .compress s = commandOutcome ((issue 0x01#8 s).bind compressChain) :=
  if_neg (by simp [hb])

theorem exec_decompress_of_idle {s : State} (hb : s.busy = false) :
    exec .decompress s = commandOutcome ((issue 0x02#8 s).bind decompressChain) :=
  if_neg (by simp [hb])

/-- Settles O10: a turn of the engine is one part of the chain, and after an abort the remaining
turns change nothing. -/
theorem fineAndCoarseStepsAgree : Obligations.FineAndCoarseStepsAgree := by
  intro s hb hp
  have hb0 : ({ s with inputs := [] } : State).busy = false := hb
  exact ⟨(run_writeCmd rfl runsAs_compressChain hb hp).trans (exec_compress_of_idle hb0).symm,
    (run_writeCmd rfl runsAs_decompressChain hb hp).trans (exec_decompress_of_idle hb0).symm⟩

end Sys2Proof.Machine

namespace Sys2Proof.Machine

/-! ### Command issue and its abort, and completion (45_top_level.md R186, R192) -/

/-- STATUS after the abort sequence is ERR alone (60_exceptions.md R222). -/
theorem statusWord_abort (e : Err) (s : State) : statusWord (abort e s) = 0x4#32 := by
  have fields : statusWord (abort e s) = 0#22 ++ topOpCode .idle ++ phaseCode .idle ++ 0#1 ++
      BitVec.ofBool true ++ BitVec.ofBool false ++ BitVec.ofBool false := rfl
  rw [fields]
  decide

theorem abort_olen (e : Err) (s : State) : (abort e s).olen = 0#32 := rfl

theorem abort_errinfo (e : Err) (s : State) :
    (abort e s).errinfo = errInfoWord e s.phase s.op := by
  cases hb : s.busy <;> simp [abort, hb, State.reportError, State.nextDraw, State.spoilStorage]

/-- An error at command issue starts nothing, so the working storage stays (30_encoding.md R73; log
6). -/
theorem abort_of_idle (e : Err) {s : State} (hb : s.busy = false) :
    abort e s = (s.spoilObuf.reportError e).nextDraw := by
  rw [abort, if_neg (by simp [hb])]

theorem commandOf_eq_none {c : Byte} (h1 : c ≠ 0x01#8) (h2 : c ≠ 0x02#8) : commandOf c = none := by
  rw [commandOf, if_neg h1, if_neg h2]

theorem lengthLegal_iff {o : TopOp} {s : State} :
    lengthLegal o s = true ↔ s.ilen.toNat ≤ s.params.ibufCap.toNat ∧
      (o = .compress → s.ilen.toNat ≤ Config.maxTextLen) := by
  cases o <;> simp [lengthLegal]

theorem issue_of_illegal {c : Byte} {o : TopOp} {s : State} (hc : commandOf c = some o)
    (hl : ¬ lengthLegal o s = true) : issue c s = .raise .command (s.clearReport.setOp o) := by
  rw [issue, hc]
  exact if_neg hl

/-- Settles O5: the write is the issue of a legal command. -/
theorem writingALegalCommandIssuesIt : Obligations.WritingALegalCommandIssuesIt := by
  intro s c o rest hb hin hc hcap hmax
  have hissue := issue_of_legal (s := { s with inputs := rest }) hc
    (lengthLegal_iff.2 ⟨hcap, hmax⟩)
  rw [step_of_writeCmd hb hin, hissue]
  rfl

/-- Settles O6: no command is selected, and the abort at issue finds OP and PHASE idle. -/
theorem writingAnIllegalCodeRaisesCommandError :
    Obligations.WritingAnIllegalCodeRaisesCommandError := by
  intro s c rest hb hok hin h1 h2
  obtain ⟨hop, hphase⟩ := hok.idle hb
  have hissue : issue c { s with inputs := rest } =
      .raise .command { s with inputs := rest }.clearReport := by
    rw [issue, commandOf_eq_none h1 h2]
  refine ⟨_, (step_of_writeCmd hb hin).trans (congrArg commandOutcome hissue),
    statusWord_abort _ _, ?_, abort_olen _ _, ?_⟩
  · rw [abort_errinfo, clearReport_phase, clearReport_op, hphase, hop]
    rfl
  · have hidle : ({ s with inputs := rest } : State).clearReport.busy = false := hb
    rw [abort_of_idle _ hidle]
    simp only [State.nextDraw, State.reportError, State.spoilObuf, State.clearReport, hop, hphase, hb]

/-- Settles O7: the command is selected, its length test fails, and the abort at issue records its
OP. -/
theorem anIllegalLengthRaisesCommandError : Obligations.AnIllegalLengthRaisesCommandError := by
  intro s c o rest hb hok hin hc hlen
  have hphase := (hok.idle hb).2
  have hillegal : ¬ lengthLegal o { s with inputs := rest } = true := fun hl => by
    obtain ⟨hcap, hmax⟩ := lengthLegal_iff.1 hl
    rcases hlen with hlong | ⟨ho, hlong⟩
    · exact absurd hcap (Nat.not_le.2 hlong)
    · exact absurd (hmax ho) (Nat.not_le.2 hlong)
  have hissue := issue_of_illegal hc hillegal
  have hreport : (abort .command ({ s with inputs := rest }.clearReport.setOp o)).errinfo =
      errInfoWord .command .idle o := by
    rw [abort_errinfo, setOp_phase, clearReport_phase, setOp_op, hphase]
  refine ⟨_, (step_of_writeCmd hb hin).trans (congrArg commandOutcome hissue),
    statusWord_abort _ _, abort_olen _ _, ?_, ?_, ?_, ?_⟩
  · rw [hreport]
    cases o <;> rfl
  · rw [hreport]
    cases o <;> rfl
  · rw [hreport]
    cases o <;> rfl
  · have hidle : (({ s with inputs := rest } : State).clearReport.setOp o).busy = false := hb
    rw [abort_of_idle _ hidle]
    exact ⟨rfl, rfl, rfl⟩

/-- Settles O13: in phase Written the part of either command is `complete`. -/
theorem completionSetsDoneAndReturnsToIdle : Obligations.CompletionSetsDoneAndReturnsToIdle := by
  intro s hb hop hphase
  rw [engineTurn, if_pos hb, enginePart_written hop ⟨hb, rfl, hphase⟩]
  rfl

end Sys2Proof.Machine

namespace Sys2Proof.Machine

/-! ### A bit-string packed into bytes (20_memory.md R51, R54, R55) -/

theorem byteOfBits_congr {f g : Nat → Bool} (h : ∀ k < 8, f k = g k) :
    byteOfBits f = byteOfBits g := by
  have weights : ((List.range 8).map fun k => if f k then 2 ^ (7 - k) else 0) =
      (List.range 8).map fun k => if g k then 2 ^ (7 - k) else 0 :=
    List.map_congr_left fun k hk => by rw [h k (List.mem_range.1 hk)]
  rw [byteOfBits, weights, byteOfBits]

theorem byteBit_byteOfBits_getD (b0 b1 b2 b3 b4 b5 b6 b7 : Bool) (k : Fin 8) :
    byteBit (byteOfBits fun n => [b0, b1, b2, b3, b4, b5, b6, b7].getD n false) (7 - k) =
      [b0, b1, b2, b3, b4, b5, b6, b7].getD k false := by
  revert b0 b1 b2 b3 b4 b5 b6 b7 k
  decide +kernel

/-- Stream bit `k` of the byte is `f k`. -/
theorem byteBit_byteOfBits (f : Nat → Bool) {k : Nat} (hk : k < 8) :
    byteBit (byteOfBits f) (7 - k) = f k := by
  have listed (n : Nat) (hn : n < 8) :
      f n = [f 0, f 1, f 2, f 3, f 4, f 5, f 6, f 7].getD n false := by
    interval_cases n <;> rfl
  rw [byteOfBits_congr listed, listed k hk]
  exact byteBit_byteOfBits_getD _ _ _ _ _ _ _ _ ⟨k, hk⟩

@[simp] theorem packBits_length (bits : Bits) : (packBits bits).length = ceilDiv8 bits.length := by
  simp [packBits]

theorem packBits_getD (bits : Bits) {j : Nat} (hj : j < ceilDiv8 bits.length) :
    (packBits bits).getD j 0#8 = byteOfBits fun k => bits.getD (8 * j + k) false := by
  simp [packBits, List.getD_eq_getElem?_getD, hj]

theorem packedBits_packBits (bits : Bits) : packedBits (packBits bits) bits.length = bits := by
  refine List.ext_getElem (by simp [packedBits]) fun i hi hi' => ?_
  have hj : i / 8 < ceilDiv8 bits.length := by
    unfold ceilDiv8
    omega
  have hsplit : 8 * (i / 8) + i % 8 = i := Nat.div_add_mod i 8
  simp only [packedBits, List.getElem_map, List.getElem_range]
  rw [packBits_getD bits hj,
    byteBit_byteOfBits _ (Nat.mod_lt i (by decide)), hsplit, List.getD_eq_getElem _ _ hi']

/-- The stored stream, read off the payload's bytes. -/
theorem storedBits_eq_packedBits {s : State} (h : StreamFits s) :
    storedBits s = packedBits (s.payload.readBytes .payload 0 s.plen.toNat) s.vbc.toNat := by
  refine List.map_congr_left fun i hi => ?_
  have hin : i / 8 < (s.payload.readBytes .payload 0 s.plen.toNat).length := by
    have hlt := (List.mem_range.1 hi).trans_le h
    rw [readBytes_length]
    omega
  rw [Mem.bit, List.getD_eq_getElem _ _ hin, readBytes_getElem, Nat.zero_add]

/-- The bytes of the payload that BP.ENCODE leaves (30_encoding.md R83). -/
theorem Packed.payload_eq {s t : State} (h : Packed s t) :
    t.payload.readBytes .payload 0 t.plen.toNat = packBits (textBits s.code s.inputText) := by
  have hlen : t.plen.toNat = ceilDiv8 (textBits s.code s.inputText).length := by
    rw [h.plen, h.vbc]
  have hbit (i : Nat) (hi : i < 8 * t.plen.toNat) :
      t.payload.bit .payload i = (textBits s.code s.inputText).getD i false := by
    rcases Nat.lt_or_ge i t.vbc.toNat with hlo | hhi
    · rw [← h.stream, storedBits, List.getD_eq_getElem _ _ (by simpa using hlo)]
      simp
    · rw [h.padding i hhi hi, List.getD_eq_default _ _ (h.vbc ▸ hhi)]
  refine List.ext_getElem (by simp [hlen]) fun j hj hj' => ?_
  rw [readBytes_length] at hj
  rw [readBytes_getElem, Nat.zero_add, ← List.getD_eq_getElem _ 0#8 hj',
    packBits_getD _ (hlen ▸ hj)]
  refine BitVec.eq_of_getLsbD_eq fun i hi => ?_
  have hback : 7 - (7 - i) = i := by omega
  have hread := hbit (8 * j + (7 - i)) (by omega)
  have hdiv : (8 * j + (7 - i)) / 8 = j := by omega
  have hmod : (8 * j + (7 - i)) % 8 = 7 - i := by omega
  rw [Mem.bit, hdiv, hmod, hback] at hread
  have hbyte := byteBit_byteOfBits
    (fun k => (textBits s.code s.inputText).getD (8 * j + k) false) (k := 7 - i) (by omega)
  rw [hback] at hbyte
  exact hread.trans hbyte.symm

end Sys2Proof.Machine

namespace Sys2Proof.Machine

/-! ### Two runs of an operation (45_top_level.md R193) -/

/-- Two runs end in the same way: both complete, in states related by `R`, or both raise the same
error, or both stop with the same fault. -/
inductive Res.Alike (R : State → State → Prop) : Res → Res → Prop
  | done {s s' : State} (h : R s s') : Res.Alike R (.done s) (.done s')
  | raise (e : Err) (s s' : State) : Res.Alike R (.raise e s) (.raise e s')
  | stop (f : Fault) : Res.Alike R (.stop f) (.stop f)

section Alike

variable {R Q : State → State → Prop}

theorem alike_bind {r r' : Res} {k k' : State → Res} (hr : r.Alike R r')
    (hk : ∀ t t', R t t' → (k t).Alike Q (k' t')) : (r.bind k).Alike Q (r'.bind k') := by
  cases hr with
  | done h => exact hk _ _ h
  | raise e s s' => exact .raise e s s'
  | stop f => exact .stop f

theorem alike_forEach {α : Type} {body : α → State → Res}
    (h : ∀ x t t', R t t' → (body x t).Alike R (body x t')) (xs : List α) {s s' : State}
    (hs : R s s') : (forEach body xs s).Alike R (forEach body xs s') := by
  induction xs generalizing s s' with
  | nil => exact .done hs
  | cons x xs ih => exact alike_bind (h x s s' hs) fun _ _ ht => ih ht

end Alike

/-! ### TB.BUILD reads FREQ alone (41_tree_builder.md R123 to R130) -/

/-- The two states hold the same records and the same queue of them. -/
structure SameTree (s s' : State) : Prop where
  arena : s'.arena = s.arena
  heap : s'.heap = s.heap

/-- They also hold the same record in PQ_RES. -/
structure SameExtract (s s' : State) : Prop extends SameTree s s' where
  res : s'.pqRes = s.pqRes

section SameTree

variable {s s' : State}

theorem SameTree.less (h : SameTree s s') (q : QueueParams) : s'.less q = s.less q := by
  rw [State.less, State.less, h.arena]

theorem pqInsert_alike (q : QueueParams) (h : SameTree s s') (hv : s'.pqArgv = s.pqArgv) :
    (pqInsert q s).Alike SameTree (pqInsert q s') := by
  rw [pqInsert, pqInsert, h.heap, h.less, hv]
  split
  · exact .raise _ _ _
  · exact .done ⟨h.arena, rfl⟩

theorem pqExtractMin_alike (q : QueueParams) (h : SameTree s s') :
    (pqExtractMin q s).Alike SameExtract (pqExtractMin q s') := by
  rw [pqExtractMin, pqExtractMin, h.heap, h.less]
  split
  · exact .raise _ _ _
  · exact .done ⟨⟨h.arena, rfl⟩, rfl⟩

theorem addNode_alike (x : Node) (h : SameTree s s') :
    (addNode x s).Alike SameTree (addNode x s') :=
  pqInsert_alike _ ⟨congrArg (· ++ [x]) h.arena, h.heap⟩ (congrArg List.length h.arena)

theorem addLeaf_alike (x : Byte × Word) (h : SameTree s s') :
    (addLeaf x s).Alike SameTree (addLeaf x s') := by
  rw [addLeaf, addLeaf]
  split
  · exact .done h
  · exact addNode_alike _ h

theorem mergeOnce_alike (h : SameTree s s') : (mergeOnce s).Alike SameTree (mergeOnce s') := by
  refine alike_bind (pqExtractMin_alike _ h) fun s1 s1' h1 => ?_
  refine alike_bind (pqExtractMin_alike _ h1.toSameTree) fun s2 s2' h2 => ?_
  rw [h2.arena, h1.res, h2.res]
  exact addNode_alike _ h2.toSameTree

theorem mergeLoop_alike (n : Nat) (h : SameTree s s') :
    (mergeLoop n s).Alike SameTree (mergeLoop n s') := by
  induction n generalizing s s' with
  | zero => exact .done h
  | succ n ih =>
    rw [mergeLoop, mergeLoop, h.heap]
    split
    · exact alike_bind (mergeOnce_alike h) fun _ _ => ih
    · exact .done h

/-- What the CodeGenerator reads of the tree (42_code_generator.md R135). -/
def SameCodes (s s' : State) : Prop := codesOf s'.arena s'.root = codesOf s.arena s.root

theorem takeRoot_alike (h : SameTree s s') : (takeRoot s).Alike SameCodes (takeRoot s') :=
  alike_bind (pqExtractMin_alike _ h) fun t t' ht => .done <| by
    show codesOf t'.arena (some (BitVec.ofNat 9 t'.pqRes)) = _
    rw [ht.arena, ht.res]

theorem tbBuild_alike (h : s'.freq = s.freq) : (tbBuild s).Alike SameCodes (tbBuild s') := by
  have hentries : entries s'.freq = entries s.freq := congrArg entries h
  rw [tbBuild, tbBuild, hentries]
  have start : SameTree { s with arena := [], heap := [] } { s' with arena := [], heap := [] } :=
    ⟨rfl, rfl⟩
  refine alike_bind (alike_forEach (fun x _ _ => addLeaf_alike x) (entries s.freq) start)
    fun t t' ht => ?_
  have hnodes : t'.arena.length = t.arena.length := congrArg List.length ht.arena
  have hsize : t'.heap.length = t.heap.length := congrArg List.length ht.heap
  rw [hnodes, hsize]
  split
  · exact .done (congrArg (codesOf · none) ht.arena)
  · exact alike_bind (mergeLoop_alike _ ht) fun _ _ => takeRoot_alike

end SameTree

/-! ### The codes of a text -/

/-- The codes of a text: those of the tree that TB.BUILD makes of the text's counts. -/
def CodeOfText (text : List Byte) (code : Table Bits) : Prop :=
  ∃ s t : State, s.freq = countText text ∧ tbBuild s = .done t ∧
    codesOf t.arena t.root = some code

/-- TB.BUILD leaves the text's tree for CG.GEN. -/
theorem tbBuild_codeOfText {s : State} {text : List Byte} (h : s.freq = countText text) :
    (tbBuild s).Completes fun t =>
      ∃ code, CodeOfText text code ∧ codesOf t.arena t.root = some code := by
  obtain ⟨t, ht, -⟩ := completes_iff.1 (tbBuild_built s)
  have htree := tbBuild_holdsTree s
  rw [ht] at htree
  obtain ⟨code, hcode⟩ := exists_codesOf htree
  exact completes_iff.2 ⟨t, ht, code, ⟨s, t, h, ht, hcode⟩, hcode⟩

namespace CodeOfText

variable {text : List Byte} {code code' : Table Bits}

/-- The tree depends on the counts alone. -/
theorem unique (h : CodeOfText text code) (h' : CodeOfText text code') : code' = code := by
  obtain ⟨s, t, hs, ht, hcode⟩ := h
  obtain ⟨s', t', hs', ht', hcode'⟩ := h'
  have same := tbBuild_alike (s := s) (s' := s') (hs'.trans hs.symm)
  rw [ht, ht'] at same
  cases same with
  | done heq => exact Option.some.inj (hcode'.symm.trans (Eq.trans heq hcode))

theorem prefixFree (h : CodeOfText text code) : PrefixFree code := by
  obtain ⟨_, _, -, -, hcode⟩ := h
  exact codesOf_prefixFree hcode

theorem codesDistinct (h : CodeOfText text code) : CodesDistinct code := fun a b hab ha heq =>
  h.prefixFree a b hab ha (heq ▸ ha) (heq ▸ ⟨[], List.append_nil _⟩)

theorem codesFit (h : CodeOfText text code) : CodesFit code := by
  obtain ⟨_, _, -, -, hcode⟩ := h
  exact codesOf_codesFit hcode

/-- Every byte of the text has a code, for no counter wraps. -/
theorem ne_nil (h : CodeOfText text code) (hlen : text.length < 2 ^ 32) {b : Byte}
    (hb : b ∈ text) : tableGet code b ≠ [] := by
  obtain ⟨s, t, hs, ht, hcode⟩ := h
  have hbuilt := tbBuild_built s
  rw [ht] at hbuilt
  refine (codesOf_ne_nil_iff_of_root hcode b).2 ((hbuilt.leadsTo_iff b).2 ?_)
  have hcount : (tableGet s.freq b).toNat ≠ 0 := by
    rw [hs, countText_toNat hlen]
    exact (List.count_pos_iff.2 hb).ne'
  exact ⟨tableGet s.freq b, mem_presentCounts.2 ⟨rfl, fun hz => hcount (congrArg BitVec.toNat hz)⟩⟩

end CodeOfText

end Sys2Proof.Machine

namespace Sys2Proof.Machine

/-! ### A command that runs without an error -/

/-- The command `o`, issued with the parameters and the input of `s`, runs in phase `p`, and no error
is reported. -/
structure Underway (o : TopOp) (s : State) (p : Phase) (t : State) : Prop
    extends RunningAt o p t, NoReport t where
  params : t.params = s.params
  ilen : t.ilen = s.ilen
  ibuf : t.ibuf = s.ibuf

theorem completes_and {P Q : State → Prop} {r : Res} (h : r.Completes P) (h' : r.Holds Q) :
    r.Completes fun t => P t ∧ Q t := by
  cases r with
  | done t => exact ⟨h, h'⟩
  | raise e t => exact h.elim
  | stop f => exact h.elim

theorem underway_issued {o : TopOp} {s : State} :
    Underway o s s.phase (s.clearReport.setOp o).setBusy where
  busy := rfl
  op := rfl
  phase := rfl
  err := rfl
  errinfo := rfl
  params := rfl
  ilen := rfl
  ibuf := rfl

namespace Underway

variable {o : TopOp} {s t u : State} {p : Phase}

theorem inputText (h : Underway o s p t) : t.inputText = s.inputText := by
  simp only [State.inputText, State.ibufBytes, h.ibuf, h.ilen, h.params]

theorem legal (h : Underway o s p t) (hl : s.ilen.toNat ≤ s.params.ibufCap.toNat) :
    t.ilen.toNat ≤ t.params.ibufCap.toNat := by
  rwa [h.ilen, h.params]

theorem of_keeps (h : Underway o s p t) (hk : Keeps t u) : Underway o s p u where
  toRunningAt := h.toRunningAt.of_keeps hk
  err := hk.err.trans h.err
  errinfo := hk.errinfo.trans h.errinfo
  params := hk.params.trans h.params
  ilen := hk.ilen.trans h.ilen
  ibuf := hk.ibuf.trans h.ibuf

theorem setPhase (h : Underway o s p t) (p' : Phase) : Underway o s p' (t.setPhase p') :=
  { h with phase := rfl }

theorem setOlen (h : Underway o s p t) : Underway o s p t.setOlen := { h with }

/-- A completed operation, followed by its phase change. -/
theorem thenPhase (h : Underway o s p t) {p' : Phase} {r : Res} {P : State → Prop}
    (hk : r.Holds (Keeps t)) (hr : r.Completes fun u => P (u.setPhase p')) :
    (Machine.thenPhase p' r).Completes fun u => Underway o s p' u ∧ P u :=
  completes_bind (completes_and hr hk) fun _ ⟨hu, hk⟩ => ⟨(h.of_keeps hk).setPhase p', hu⟩

/-- An operation that fails leaves the frame for the abort sequence. -/
theorem thenPhase_raise (h : Underway o s p t) {p' : Phase} {r : Res} {e : Err}
    (hk : r.Holds (Keeps t)) (hr : ∃ u, r = .raise e u) :
    ∃ u, Machine.thenPhase p' r = .raise e u ∧ Underway o s p u := by
  obtain ⟨u, rfl⟩ := hr
  exact ⟨u, rfl, h.of_keeps hk⟩

end Underway

/-! ### The chain of COMPRESS, part by part (45_top_level.md R187) -/

section CompressParts

variable {s t : State} {p : Phase} {code : Table Bits}

theorem countPart_completes (h : Underway .compress s p t)
    (hl : s.ilen.toNat ≤ s.params.ibufCap.toNat) :
    (countPart t).Completes fun u =>
      Underway .compress s .counting u ∧ u.freq = countText s.inputText := by
  refine h.thenPhase (fcCount_keeps t) ?_
  rw [fcCount_of_legal (h.legal hl), ← inputText_of_legal (h.legal hl), h.inputText]
  exact rfl

theorem treePart_completes (h : Underway .compress s .counting t)
    (hfreq : t.freq = countText s.inputText) :
    (treePart t).Completes fun u => Underway .compress s .treeBuilt u ∧
      ∃ code, CodeOfText s.inputText code ∧ codesOf u.arena u.root = some code :=
  h.thenPhase (tbBuild_keeps t) (tbBuild_codeOfText hfreq)

theorem codePart_completes (h : Underway .compress s .treeBuilt t)
    (hcode : codesOf t.arena t.root = some code) (hdist : CodesDistinct code) :
    (codePart t).Completes fun u => Underway .compress s .codesGenerated u ∧ u.code = code := by
  refine h.thenPhase (keeps_bind (cgGen_keeps t) cgInvert_keeps) ?_
  have hgen : cgGen t = .done { t with code := code } := by rw [cgGen, hcode]
  rw [hgen, done_bind]
  rcases cgInvert_cases { t with code := code } with ⟨-, hinv⟩ | ⟨hdup, -⟩
  · rw [hinv]
    exact rfl
  · exact absurd hdist hdup

theorem packPart_completes (h : Underway .compress s .codesGenerated t)
    (hl : s.ilen.toNat ≤ s.params.ibufCap.toNat) (hcode : t.code = code)
    (hall : ∀ b ∈ s.inputText, tableGet code b ≠ [])
    (hfit : (textBits code s.inputText).length ≤ Config.maxBitCount) :
    (packPart t).Completes fun u => Underway .compress s .packed u ∧
      containerOf u = containerOfText code s.inputText := by
  subst hcode
  rw [← h.inputText] at hall hfit ⊢
  refine h.thenPhase (bpEncode_keeps t) ?_
  rcases bpEncode_cases (h.legal hl) with ⟨⟨b, hb, hnil⟩, -⟩ | ⟨-, hlong, -⟩ | ⟨-, -, u, hu, hp⟩
  · exact absurd hnil (hall b hb)
  · exact absurd hfit (Nat.not_le.2 hlong)
  · rw [hu]
    have hsame : u.code = t.code := hp.frame.map State.code
    have hvbc : u.vbc = BitVec.ofNat 32 (textBits t.code t.inputText).length := by
      rw [← hp.vbc, BitVec.ofNat_toNat, BitVec.setWidth_eq]
    show containerBytes u.code u.vbc (u.payload.readBytes .payload 0 u.plen.toNat) = _
    rw [hsame, hvbc, hp.payload_eq, containerOfText]

theorem packPart_raises (h : Underway .compress s .codesGenerated t)
    (hl : s.ilen.toNat ≤ s.params.ibufCap.toNat) (hcode : t.code = code)
    (hall : ∀ b ∈ s.inputText, tableGet code b ≠ [])
    (hlong : Config.maxBitCount < (textBits code s.inputText).length) :
    ∃ u, packPart t = .raise .outputOverflow u ∧ Underway .compress s .codesGenerated u := by
  subst hcode
  rw [← h.inputText] at hall hlong
  refine h.thenPhase_raise (bpEncode_keeps t) ?_
  rcases bpEncode_cases (h.legal hl) with ⟨⟨b, hb, hnil⟩, -⟩ | ⟨-, -, hraise⟩ | ⟨-, hfit, -⟩
  · exact absurd hnil (hall b hb)
  · exact hraise
  · exact absurd hfit (Nat.not_le.2 hlong)

end CompressParts

/-! ### What the host finds after a command -/

/-- Where the command has completed, its output; where it was aborted, ERRINFO. -/
def HostFinds : Except Word (List Byte) → State → Prop
  | .ok output, t => Completed (BitVec.ofNat 32 output.length) t ∧ hostOutput t = output
  | .error info, t => ∃ e u, t = abort e u ∧ t.errinfo = info

/-- The output stands at OBUF[0 .. OLEN). -/
def OutputStands (output : List Byte) (t : State) : Prop :=
  t.olen = BitVec.ofNat 32 output.length ∧ hostOutput t = output

/-- `OLEN <- WPOS` where OBUF holds the output below WPOS (45_top_level.md R187, R189). -/
theorem outputStands_setOlen {t : State} {output : List Byte} (hw : t.wpos = output.length)
    (hout : t.obuf.readBytes .obuf 0 output.length = output)
    (hroom : output.length ≤ t.params.obufCap.toNat) : OutputStands output t.setOlen := by
  have holen : t.setOlen.olen = BitVec.ofNat 32 output.length := by rw [setOlen_olen, hw]
  refine ⟨holen, ?_⟩
  rw [hostOutput, holen, BitVec.toNat_ofNat,
    Nat.mod_eq_of_lt (hroom.trans_lt t.params.obufCap.isLt), setOlen_obuf, hout]

namespace Underway

variable {o : TopOp} {s t : State} {p : Phase}

/-- Written to Idle: `complete` (45_top_level.md R192). -/
theorem hostFinds_complete (h : Underway o s p t) {output : List Byte}
    (hout : OutputStands output t) : HostFinds (.ok output) t.complete :=
  ⟨hout.1 ▸ h.toNoReport.completed, hout.2⟩

theorem hostFinds_abort (h : Underway o s p t) (e : Err) :
    HostFinds (.error (errInfoWord e p o)) (abort e t) :=
  ⟨e, t, rfl, by rw [abort_errinfo, h.phase, h.op]⟩

end Underway

/-! ### COMPRESS as a function of the text (45_top_level.md R187, R193) -/

section CompressChain

variable {s t : State} {p : Phase}

theorem writePart_completes (h : Underway .compress s .packed t)
    (hroom : (containerOf t).length ≤ s.params.obufCap.toNat) :
    (writePart t).Completes fun u =>
      Underway .compress s .written u ∧ OutputStands (containerOf t) u := by
  rw [← h.params] at hroom
  have hwrite := cfWrite_of_room hroom
  have hk := cfWrite_keeps t
  rw [hwrite] at hk
  rw [writePart, hwrite]
  exact ⟨(h.of_keeps hk).setOlen.setPhase .written,
    outputStands_setOlen rfl (readBytes_writeBytes .obuf (containerOf t) t.obuf 0) hroom⟩

theorem writePart_raises (h : Underway .compress s .packed t)
    (hover : s.params.obufCap.toNat < (containerOf t).length) :
    ∃ u, writePart t = .raise .outputOverflow u ∧ Underway .compress s .packed u := by
  rw [← h.params] at hover
  obtain ⟨u, hu⟩ := cfWrite_of_overflow hover
  have hk := cfWrite_keeps t
  rw [hu] at hk
  exact ⟨u, by rw [writePart, hu, raise_bind]; rfl, h.of_keeps hk⟩

/-- What COMPRESS of a text gives under the text's codes (45_top_level.md R187; 43_bit_packer.md
R152; 44_container.md R170). -/
def compressResult (code : Table Bits) (text : List Byte) (cap : Nat) : Except Word (List Byte) :=
  if Config.maxBitCount < (textBits code text).length then
    .error (errInfoWord .outputOverflow .codesGenerated .compress)
  else if cap < (containerOfText code text).length then
    .error (errInfoWord .outputOverflow .packed .compress)
  else .ok (containerOfText code text)

theorem compressChain_result (h : Underway .compress s p t)
    (hl : s.ilen.toNat ≤ s.params.ibufCap.toNat) :
    ∃ code, CodeOfText s.inputText code ∧ ∃ u, commandOutcome (compressChain t) = .next u ∧
      HostFinds (compressResult code s.inputText s.params.obufCap.toNat) u := by
  obtain ⟨t1, ht1, h1, hfreq⟩ := completes_iff.1 (countPart_completes h hl)
  obtain ⟨t2, ht2, h2, code, hcode, hcodes⟩ := completes_iff.1 (treePart_completes h1 hfreq)
  obtain ⟨t3, ht3, h3, hcode3⟩ :=
    completes_iff.1 (codePart_completes h2 hcodes hcode.codesDistinct)
  have hall (b : Byte) (hb : b ∈ s.inputText) : tableGet code b ≠ [] :=
    hcode.ne_nil (inputText_length_lt s) hb
  refine ⟨code, hcode, ?_⟩
  rw [compressChain, ht1, done_bind, ht2, done_bind, ht3, done_bind, compressResult]
  split
  next hlong =>
    obtain ⟨u, hu, hrun⟩ := packPart_raises h3 hl hcode3 hall hlong
    rw [hu]
    exact ⟨_, rfl, hrun.hostFinds_abort _⟩
  next hfit =>
    obtain ⟨t4, ht4, h4, hcont⟩ :=
      completes_iff.1 (packPart_completes h3 hl hcode3 hall (Nat.not_lt.1 hfit))
    rw [ht4, done_bind, ← hcont]
    split
    next hover =>
      obtain ⟨u, hu, hrun⟩ := writePart_raises h4 hover
      rw [hu]
      exact ⟨_, rfl, hrun.hostFinds_abort _⟩
    next hroom =>
      obtain ⟨t5, ht5, h5, hout⟩ := completes_iff.1 (writePart_completes h4 (Nat.not_lt.1 hroom))
      rw [ht5, done_bind]
      exact ⟨_, rfl, h5.hostFinds_complete hout⟩

theorem execCompress_result (hb : s.busy = false) (hl : lengthLegal .compress s = true) :
    ∃ code, CodeOfText s.inputText code ∧ ∃ u, exec .compress s = .next u ∧
      HostFinds (compressResult code s.inputText s.params.obufCap.toNat) u := by
  have hexec : exec .compress s =
      commandOutcome (compressChain (s.clearReport.setOp .compress).setBusy) := by
    rw [exec_compress_of_idle hb, issue_of_legal rfl hl, done_bind]
  rw [hexec]
  exact compressChain_result underway_issued (lengthLegal_iff.1 hl).1

end CompressChain

/-! ### COMPRESS completes (45_top_level.md R187; 43_bit_packer.md R152; 44_container.md R170) -/

theorem textBits_length_le {code : Table Bits} (hfit : CodesFit code) (text : List Byte) :
    (textBits code text).length ≤ 255 * text.length := by
  induction text with
  | nil => exact Nat.zero_le _
  | cons b text ih =>
    rw [textBits_cons, List.length_append, List.length_cons]
    have hb := hfit b
    omega

/-- At most 256 entries, each of a symbol, a length and at most 255 code bytes. -/
theorem entries_length_sum_le {code : Table Bits} (hfit : CodesFit code) :
    ((presentCodes code).map fun x => 2 + x.2.length).sum ≤ 65792 := by
  have hcount : (presentCodes code).length ≤ 256 :=
    (List.length_filter_le _ _).trans (entries_length code).le
  have hsum := List.sum_le_card_nsmul ((presentCodes code).map fun x => 2 + x.2.length) 257
    fun n hn => by
      obtain ⟨x, hx, rfl⟩ := List.mem_map.1 hn
      have hx := (mem_presentCodes.1 hx).1 ▸ hfit x.1
      omega
  rw [List.length_map, smul_eq_mul] at hsum
  omega

theorem containerOfText_length_le {code : Table Bits} (hfit : CodesFit code) (text : List Byte) :
    (containerOfText code text).length ≤ 65800 + 32 * text.length := by
  have hbits := textBits_length_le hfit text
  have hentries := entries_length_sum_le hfit
  have hpayload : ceilDiv8 (textBits code text).length ≤ 32 * text.length :=
    (ceilDiv8_le_iff _ _).2 (by omega)
  rw [containerOfText, containerBytes_length, packBits_length]
  omega

/-- Settles O56: a code has at most 255 bits, which bounds the bit total by 255 for each byte and
the container by 65 800 bytes and 32 for each byte, so neither OutputOverflowError is met. -/
theorem compressCompletesWithinBounds : Obligations.CompressCompletesWithinBounds := by
  intro s hb hl hmax hroom
  obtain ⟨code, hcode, t, ht, hfinds⟩ := execCompress_result hb
    (lengthLegal_iff.2 ⟨hl, fun _ => hmax.trans (by decide)⟩)
  have hlen := inputText_length_of_legal hl
  have hbits := textBits_length_le hcode.codesFit s.inputText
  have hcont := containerOfText_length_le hcode.codesFit s.inputText
  have hresult : compressResult code s.inputText s.params.obufCap.toNat =
      .ok (containerOfText code s.inputText) := by
    rw [compressResult, if_neg (by rw [Config.maxBitCount]; omega), if_neg (by omega)]
  rw [hresult] at hfinds
  obtain ⟨⟨hdone, herr, hbusy, hop, hphase, hinfo, -⟩, -⟩ := hfinds
  exact ⟨t, ht, hdone, herr, hbusy, hop, hphase, hinfo⟩

end Sys2Proof.Machine

namespace Sys2Proof.Machine

/-! ### The parts of DECOMPRESS after CF.READ (45_top_level.md R189) -/

/-- What DECOMPRESS gives where the decoder emits `syms` and leaves `left` (43_bit_packer.md R157,
R160). -/
def decodeResult (syms : List Byte) (left : Bits) (cap : Nat) : Except Word (List Byte) :=
  if cap < syms.length then .error (errInfoWord .outputOverflow .tableLoaded .decompress)
  else if left = [] then .ok syms
  else .error (errInfoWord .incompleteData .tableLoaded .decompress)

section DecompressParts

variable {s t : State} {p : Phase}

/-- BitsWalked to Written to Idle. -/
theorem lengthPart_hostFinds (h : Underway .decompress s p t) {output : List Byte}
    (hw : t.wpos = output.length) (hout : t.obuf.readBytes .obuf 0 output.length = output)
    (hroom : output.length ≤ t.params.obufCap.toNat) :
    ∃ u, commandOutcome ((lengthPart t).bind finishPart) = .next u ∧ HostFinds (.ok output) u :=
  ⟨_, rfl, (h.setOlen.setPhase .written).hostFinds_complete (outputStands_setOlen hw hout hroom)⟩

/-- What follows CF.READ depends on the stream and on REV alone. -/
theorem bitsPart_hostFinds (h : Underway .decompress s .tableLoaded t) (hfits : StreamFits t)
    {syms : List Byte} {left : Bits} (hg : greedy t.rev [] (storedBits t) = (syms, left)) :
    ∃ u, commandOutcome (((bitsPart t).bind lengthPart).bind finishPart) = .next u ∧
      HostFinds (decodeResult syms left s.params.obufCap.toNat) u := by
  have hk := bpDecode_keeps t
  rw [decodeResult, ← h.params]
  rcases bpDecode_cases hfits hg with ⟨hroom, hnil, hdone⟩ | ⟨hroom, hleft, u, hraise⟩ |
    ⟨hover, u, hraise⟩
  · rw [hdone] at hk
    rw [if_neg (Nat.not_lt.2 hroom), if_pos hnil, bitsPart, hdone]
    exact lengthPart_hostFinds ((h.of_keeps hk).setPhase .bitsWalked) rfl
      (readBytes_writeBytes .obuf syms t.obuf 0) hroom
  · rw [hraise] at hk
    rw [if_neg (Nat.not_lt.2 hroom), if_neg hleft, bitsPart, hraise]
    exact ⟨_, rfl, (h.of_keeps hk).hostFinds_abort _⟩
  · rw [hraise] at hk
    rw [if_pos hover, bitsPart, hraise]
    exact ⟨_, rfl, (h.of_keeps hk).hostFinds_abort _⟩

/-! ### DECOMPRESS of a container -/

variable {es : List (Byte × Bits)} {vbc : Word} {payload : List Byte}

theorem headerPart_completes (h : Underway .decompress s p t)
    (hl : s.ilen.toNat ≤ s.params.ibufCap.toNat) {d : Nat} {ys : List Byte}
    (hin : s.inputText = bytesU32 d ++ ys) :
    (headerPart t).Completes fun u =>
      Underway .decompress s .headerParsed u ∧ u = u.afterEntries [] := by
  rw [← h.inputText] at hin
  refine h.thenPhase (readHeader_keeps t) ?_
  rw [readHeader_of_dictSize (h.legal hl) hin]
  exact rfl

theorem tablePart_completes (h : Underway .decompress s .headerParsed t)
    (hl : s.ilen.toNat ≤ s.params.ibufCap.toNat) (hafter : t = t.afterEntries [])
    (hin : IsContainer s.inputText es vbc payload) :
    (tablePart t).Completes fun u => Underway .decompress s .tableLoaded u ∧ StreamFits u ∧
      u.rev = revOf es ∧ storedBits u = packedBits payload vbc.toNat := by
  rw [← h.inputText] at hin
  have hread := readBody_of_container (h.legal hl) hin
  rw [← hafter] at hread
  refine h.thenPhase (readBody_keeps t) ?_
  rw [hread]
  obtain ⟨hplen, hstored, -⟩ := afterContainer_payload (s := t) (es := es) hin.2.1
  have hfits : StreamFits (t.afterContainer es vbc payload) := by
    rw [StreamFits, hplen, hin.2.1, ← ceilDiv8_le_iff]
    exact le_rfl
  have hstream := storedBits_eq_packedBits hfits
  rw [hplen, hstored] at hstream
  exact ⟨hfits, rfl, hstream⟩

theorem execDecompress_of_container (hb : s.busy = false)
    (hl : s.ilen.toNat ≤ s.params.ibufCap.toNat) (hin : IsContainer s.inputText es vbc payload)
    {syms : List Byte} {left : Bits}
    (hg : greedy (revOf es) [] (packedBits payload vbc.toNat) = (syms, left)) :
    ∃ u, exec .decompress s = .next u ∧
      HostFinds (decodeResult syms left s.params.obufCap.toNat) u := by
  have hexec : exec .decompress s =
      commandOutcome (decompressChain (s.clearReport.setOp .decompress).setBusy) := by
    rw [exec_decompress_of_idle hb,
      issue_of_legal (o := .decompress) rfl (lengthLegal_iff.2 ⟨hl, nofun⟩), done_bind]
  obtain ⟨-, -, rest, hbytes⟩ := id hin
  simp only [List.append_assoc] at hbytes
  obtain ⟨t1, ht1, h1, hafter⟩ := completes_iff.1 (headerPart_completes underway_issued hl hbytes)
  obtain ⟨t2, ht2, h2, hfits, hrev, hbits⟩ :=
    completes_iff.1 (tablePart_completes h1 hl hafter hin)
  rw [hexec, decompressChain, ht1, done_bind, ht2, done_bind]
  exact bitsPart_hostFinds h2 hfits (by rw [hrev, hbits, hg])

end DecompressParts

/-! ### The round trip (45_top_level.md R196) -/

/-- An illegal length ends COMPRESS at its issue. -/
theorem lengthLegal_of_done {s t : State} (hb : s.busy = false) (h : exec .compress s = .next t)
    (hdone : t.done = true) : lengthLegal .compress s = true := by
  by_contra hl
  rw [exec_compress_of_idle hb, issue_of_illegal rfl hl, raise_bind] at h
  obtain rfl := Host.Outcome.next.inj h
  cases hdone

theorem HostFinds.eq_ok_of_done {x : Except Word (List Byte)} {t : State} (h : HostFinds x t)
    (hdone : t.done = true) : ∃ output, x = .ok output := by
  cases x with
  | ok output => exact ⟨output, rfl⟩
  | error info =>
    obtain ⟨e, u, rfl, -⟩ := h
    cases hdone

theorem compressResult_eq_ok {code : Table Bits} {text output : List Byte} {cap : Nat}
    (h : compressResult code text cap = .ok output) :
    (textBits code text).length ≤ Config.maxBitCount ∧
      (containerOfText code text).length ≤ cap ∧ output = containerOfText code text := by
  unfold compressResult at h
  split at h
  · cases h
  next hfit =>
    split at h
    · cases h
    next hroom => exact ⟨Nat.not_lt.1 hfit, Nat.not_lt.1 hroom, (Except.ok.inj h).symm⟩

/-- The container of a text, under codes that all differ and fit their length field. -/
theorem isContainer_containerOfText {code : Table Bits} (hdist : CodesDistinct code)
    (hfit : CodesFit code) {text : List Byte}
    (hbits : (textBits code text).length ≤ Config.maxBitCount) :
    IsContainer (containerOfText code text) (presentCodes code)
      (BitVec.ofNat 32 (textBits code text).length) (packBits (textBits code text)) := by
  have hvbc : (BitVec.ofNat 32 (textBits code text).length).toNat = (textBits code text).length :=
    Nat.mod_eq_of_lt (Nat.lt_succ_of_le hbits)
  exact ⟨goodEntries_presentCodes hdist hfit, by rw [packBits_length, hvbc], [],
    (List.append_nil _).symm⟩

/-- Settles O60: what COMPRESS left is the container of the text, CF.READ finds its codes and its
bits there, and the greedy decoder inverts the concatenation of `PrefixFree` codes. -/
theorem decompressInvertsCompress : Obligations.DecompressInvertsCompress := by
  intro s t s' hb hexec hdone hb' hilen hin hl' hroom
  have hlegal := lengthLegal_of_done hb hexec hdone
  have hl := (lengthLegal_iff.1 hlegal).1
  obtain ⟨code, hcode, u, hu, hfinds⟩ := execCompress_result hb hlegal
  obtain rfl := Host.Outcome.next.inj (hexec.symm.trans hu)
  obtain ⟨output, hresult⟩ := hfinds.eq_ok_of_done hdone
  obtain ⟨hbits, -, rfl⟩ := compressResult_eq_ok hresult
  rw [hresult] at hfinds
  obtain ⟨-, hout⟩ := hfinds
  have hcont : IsContainer s'.inputText (presentCodes code) _ _ :=
    (hin.trans hout) ▸ isContainer_containerOfText hcode.codesDistinct hcode.codesFit hbits
  have hgreedy := greedy_textBits hcode.prefixFree (isInverse_invertedTable hcode.codesDistinct)
    (text := s.inputText) fun b hb => hcode.ne_nil (inputText_length_lt s) hb
  rw [← packedBits_packBits (textBits code s.inputText)] at hgreedy
  have hvbc : (BitVec.ofNat 32 (textBits code s.inputText).length).toNat =
      (textBits code s.inputText).length := Nat.mod_eq_of_lt (Nat.lt_succ_of_le hbits)
  rw [← hvbc] at hgreedy
  have hlen := inputText_length_of_legal hl
  obtain ⟨v, hv, hfound⟩ := execDecompress_of_container hb' hl' hcont hgreedy
  rw [decodeResult, if_neg (by omega), if_pos rfl] at hfound
  obtain ⟨⟨hvdone, hverr, -, -, -, -, holen⟩, hvout⟩ := hfound
  refine ⟨v, hv, hvdone, hverr, ?_, hvout⟩
  rw [holen, hlen, BitVec.ofNat_toNat, BitVec.setWidth_eq]

end Sys2Proof.Machine

namespace Sys2Proof.Machine

/-! ### What the host finds says what it sees -/

theorem statusWord_completed {w : Word} {t : State} (h : Completed w t) :
    statusWord t = 0x2#32 := by
  obtain ⟨hdone, herr, hbusy, hop, hphase, -, -⟩ := h
  rw [statusWord, hdone, herr, hbusy, hop, hphase]
  decide

/-- Two machines in which the host finds the same result show it the same. -/
theorem HostFinds.same {x : Except Word (List Byte)} {t t' : State} (h : HostFinds x t)
    (h' : HostFinds x t') :
    statusWord t' = statusWord t ∧ t'.errinfo = t.errinfo ∧ t'.olen = t.olen ∧
      hostOutput t' = hostOutput t := by
  cases x with
  | ok output =>
    obtain ⟨hc, hout⟩ := h
    obtain ⟨hc', hout'⟩ := h'
    obtain ⟨-, -, -, -, -, hinfo, holen⟩ := id hc
    obtain ⟨-, -, -, -, -, hinfo', holen'⟩ := id hc'
    exact ⟨(statusWord_completed hc').trans (statusWord_completed hc).symm,
      hinfo'.trans hinfo.symm, holen'.trans holen.symm, hout'.trans hout.symm⟩
  | error info =>
    obtain ⟨e, u, rfl, hinfo⟩ := h
    obtain ⟨e', u', rfl, hinfo'⟩ := h'
    exact ⟨(statusWord_abort e' u').trans (statusWord_abort e u).symm, hinfo'.trans hinfo.symm,
      rfl, rfl⟩

/-- What is left of a command, in two machines: where both end, the host finds the same. -/
def SameToHost (r r' : Res) : Prop :=
  ∀ t t', commandOutcome r = .next t → commandOutcome r' = .next t' →
    ∃ x, HostFinds x t ∧ HostFinds x t'

/-- A part of a command that ends alike in both machines: an error is aborted alike, and else the
rest of the command decides. -/
theorem sameToHost_part {o : TopOp} {p p' : Phase} {s s' t t' : State} {r r' : Res}
    {rest : State → Res} {R : State → State → Prop} (h : Underway o s p t)
    (h' : Underway o s' p t') (hk : r.Holds (Keeps t)) (hk' : r'.Holds (Keeps t'))
    (hr : r.Alike R r') (hrest : ∀ u u', Underway o s p' (u.setPhase p') →
      Underway o s' p' (u'.setPhase p') → R u u' →
      SameToHost (rest (u.setPhase p')) (rest (u'.setPhase p'))) :
    SameToHost ((thenPhase p' r).bind rest) ((thenPhase p' r').bind rest) := by
  cases hr with
  | done hu =>
    exact hrest _ _ ((h.of_keeps hk).setPhase p') ((h'.of_keeps hk').setPhase p') hu
  | raise e u u' =>
    intro v v' hv hv'
    obtain rfl := Host.Outcome.next.inj hv
    obtain rfl := Host.Outcome.next.inj hv'
    exact ⟨_, (h.of_keeps hk).hostFinds_abort e, (h'.of_keeps hk').hostFinds_abort e⟩
  | stop f => exact fun v v' hv _ => nomatch hv

/-! ### CF.READ of the same input in two machines (44_container.md R171) -/

/-- The two machines have the same bytes left to read and the same entries stored. -/
structure SameReading (s s' : State) : Prop where
  rev : s'.rev = s.rev
  unread : ∃ bs, Unread s bs ∧ Unread s' bs

/-- The two machines have the same stream to decode and the same ReverseTable. -/
structure SameStream (s s' : State) : Prop where
  rev : s'.rev = s.rev
  fits : StreamFits s
  fits' : StreamFits s'
  stream : storedBits s' = storedBits s

section SameReading

variable {R : State → State → Prop} {s s' : State}

/-- `Need(n)` ends alike, or goes on with the same bytes, and only RPOS has moved. -/
theorem need_alike {n : Nat} {k : List Byte → State → Res} (h : SameReading s s')
    (hk : ∀ bs t t', bs.length = n → t = { s with rpos := s.rpos + n } →
      t' = { s' with rpos := s'.rpos + n } → SameReading t t' → (k bs t).Alike R (k bs t')) :
    (need n s k).Alike R (need n s' k) := by
  obtain ⟨hrev, bs, hbs, hbs'⟩ := h
  rcases Nat.lt_or_ge bs.length n with hshort | hlong
  · rw [hbs.need_of_short hshort, hbs'.need_of_short hshort]
    exact .raise _ _ _
  · have hn : (bs.take n).length = n := List.length_take_of_le hlong
    rw [← List.take_append_drop n bs] at hbs hbs'
    rw [hbs.need_front hn, hbs'.need_front hn]
    exact hk _ _ _ hn rfl rfl ⟨hrev, _, hbs.skip hn, hbs'.skip hn⟩

theorem needByte_alike {k : Byte → State → Res} (h : SameReading s s')
    (hk : ∀ b t t', SameReading t t' → (k b t).Alike R (k b t')) :
    (needByte s k).Alike R (needByte s' k) :=
  need_alike h fun _ t t' _ _ _ ht => hk _ t t' ht

theorem storeEntry_alike (sym : Byte) (chars : List Byte) (h : SameReading s s') :
    (storeEntry sym chars s).Alike SameReading (storeEntry sym chars s') := by
  obtain ⟨hrev, bs, hbs, hbs'⟩ := h
  rw [storeEntry, storeEntry, hrev]
  split
  · exact .raise _ _ _
  · split
    · exact .raise _ _ _
    · split
      · exact .raise _ _ _
      · exact .done ⟨rfl, bs, { hbs with }, { hbs' with }⟩

theorem readEntry_alike (h : SameReading s s') :
    (readEntry s).Alike SameReading (readEntry s') := by
  refine needByte_alike h fun sym t t' ht => needByte_alike ht fun len u u' hu => ?_
  split
  · exact .raise _ _ _
  · exact need_alike hu fun chars _ _ _ _ _ hv => storeEntry_alike sym chars hv

theorem readEntries_alike (n : Nat) (h : SameReading s s') :
    (readEntries n s).Alike SameReading (readEntries n s') := by
  induction n generalizing s s' with
  | zero => exact .done h
  | succ n ih => exact alike_bind (readEntry_alike h) fun _ _ => ih

/-- Storing the same payload under the same VBC and PLEN leaves the same stream. -/
theorem sameStream_writeBytes {payload : List Byte} (hrev : s'.rev = s.rev)
    (hvbc : s'.vbc = s.vbc) (hplen : s'.plen = s.plen) (hfits : StreamFits s)
    (hp : s.plen.toNat = payload.length) :
    SameStream { s with payload := s.payload.writeBytes 0 payload }
      { s' with payload := s'.payload.writeBytes 0 payload } := by
  have hfits' : StreamFits s' := by rwa [StreamFits, hvbc, hplen]
  have stored {t : State} (ht : StreamFits t) (hpt : t.plen.toNat = payload.length) :
      storedBits { t with payload := t.payload.writeBytes 0 payload } =
        packedBits payload t.vbc.toNat := by
    have hread := readBytes_writeBytes .payload payload t.payload 0
    rw [← hpt] at hread
    exact (storedBits_eq_packedBits (s := { t with payload := t.payload.writeBytes 0 payload })
      ht).trans (congrArg (packedBits · t.vbc.toNat) hread)
  refine ⟨hrev, hfits, hfits', ?_⟩
  rw [stored hfits hp, stored hfits' (hplen ▸ hp), hvbc]

/-- Steps 3 and 4 leave the same bits below VBC. -/
theorem readPayload_alike (h : SameReading s s') :
    (readPayload s).Alike SameStream (readPayload s') := by
  refine need_alike h fun v t t' hv _ _ ⟨hrev, bs, hbs, hbs'⟩ => ?_
  have hfour : u32 v < 2 ^ 32 := by
    have hlt := u32_lt v
    rwa [hv] at hlt
  refine need_alike ⟨hrev, bs, { hbs with }, { hbs' with }⟩ fun payload w w' hp hw hw' hrest => ?_
  have hvbc : w.vbc = BitVec.ofNat 32 (u32 v) := congrArg State.vbc hw
  have hplen : w.plen = BitVec.ofNat 32 (ceilDiv8 (u32 v)) := congrArg State.plen hw
  have hbytes : w.plen.toNat = ceilDiv8 (u32 v) := hplen ▸ toNat_ceilDiv8 hfour
  have hfits : StreamFits w := by
    rw [StreamFits, hbytes, hvbc, BitVec.toNat_ofNat, Nat.mod_eq_of_lt hfour, ← ceilDiv8_le_iff]
  exact .done (sameStream_writeBytes hrest.rev ((congrArg State.vbc hw').trans hvbc.symm)
    ((congrArg State.plen hw').trans hplen.symm) hfits (hbytes.trans hp.symm))

theorem readBody_alike (h : SameReading s s') (hd : dictSize s' = dictSize s) :
    (readBody s).Alike SameStream (readBody s') := by
  rw [readBody, readBody, hd]
  exact alike_bind (readEntries_alike _ h) fun _ _ => readPayload_alike

/-- dictSize is in the first four bytes of the input (44_container.md R172). -/
theorem dictSize_of_legal (hl : s.ilen.toNat ≤ s.params.ibufCap.toNat)
    (hfour : 4 ≤ s.ilen.toNat) : dictSize s = u32 (s.inputText.take 4) := by
  obtain ⟨n, hn⟩ := Nat.exists_eq_add_of_le hfour
  rw [dictSize, State.ibufBytes, inputText_of_legal hl, hn, readBytes_append,
    List.take_left' (readBytes_length _ _ _ _)]

/-- Step 1 finds the same dictSize. -/
theorem readHeader_alike (hl : s.ilen.toNat ≤ s.params.ibufCap.toNat)
    (hl' : s'.ilen.toNat ≤ s'.params.ibufCap.toNat) (hin : s'.inputText = s.inputText) :
    (readHeader s).Alike (fun t t' => SameReading t t' ∧ dictSize t' = dictSize t)
      (readHeader s') := by
  have hbs := unread_inputText hl []
  have hbs' := unread_inputText hl' []
  rw [hin] at hbs'
  refine need_alike ⟨rfl, _, hbs, hbs'⟩ fun v t t' _ ht ht' hread => .done ⟨hread, ?_⟩
  have hsame : dictSize t = dictSize s ∧ dictSize t' = dictSize s' := by
    subst ht ht'
    exact ⟨rfl, rfl⟩
  have hfour : 4 ≤ s.ilen.toNat ∧ 4 ≤ s'.ilen.toNat := by
    obtain ⟨-, bs, hrest, hrest'⟩ := hread
    have hends := hrest.ends
    have hends' := hrest'.ends
    subst ht ht'
    simp only at hends hends'
    omega
  rw [hsame.1, hsame.2, dictSize_of_legal hl hfour.1, dictSize_of_legal hl' hfour.2, hin]

end SameReading

/-! ### DECOMPRESS of the same input in two machines (45_top_level.md R189, R193) -/

section DecompressTwice

variable {s s' t t' : State}

theorem bitsPart_sameToHost (h : Underway .decompress s .tableLoaded t)
    (h' : Underway .decompress s' .tableLoaded t') (hparams : s'.params = s.params)
    (hs : SameStream t t') :
    SameToHost (((bitsPart t).bind lengthPart).bind finishPart)
      (((bitsPart t').bind lengthPart).bind finishPart) := by
  intro v v' hv hv'
  obtain ⟨w, hw, hfinds⟩ := bitsPart_hostFinds h hs.fits rfl
  obtain ⟨w', hw', hfinds'⟩ := bitsPart_hostFinds h' hs.fits' rfl
  obtain rfl := Host.Outcome.next.inj (hv.symm.trans hw)
  obtain rfl := Host.Outcome.next.inj (hv'.symm.trans hw')
  rw [hs.rev, hs.stream, hparams] at hfinds'
  exact ⟨_, hfinds, hfinds'⟩

theorem decompressChain_sameToHost (h : Underway .decompress s .idle t)
    (h' : Underway .decompress s' .idle t') (hl : s.ilen.toNat ≤ s.params.ibufCap.toNat)
    (hl' : s'.ilen.toNat ≤ s'.params.ibufCap.toNat) (hparams : s'.params = s.params)
    (hin : s'.inputText = s.inputText) :
    SameToHost (decompressChain t) (decompressChain t') := by
  have hint : t'.inputText = t.inputText := by rw [h'.inputText, hin, h.inputText]
  rw [decompressChain, decompressChain]
  simp only [bind_assoc]
  refine sameToHost_part h h' (readHeader_keeps t) (readHeader_keeps t')
    (readHeader_alike (h.legal hl) (h'.legal hl') hint)
    fun u u' hu hu' ⟨⟨hrev, bs, hbs, hbs'⟩, hdict⟩ => ?_
  refine sameToHost_part hu hu' (readBody_keeps _) (readBody_keeps _)
    (readBody_alike ⟨hrev, bs, { hbs with }, { hbs' with }⟩ hdict) fun v v' hv hv' hs => ?_
  simp only [← bind_assoc]
  exact bitsPart_sameToHost hv hv' hparams { hs with }

end DecompressTwice

/-! ### COMPRESS of the same input in two machines (45_top_level.md R187, R193) -/

theorem compressChain_sameToHost {s s' t t' : State} {p p' : Phase}
    (h : Underway .compress s p t) (h' : Underway .compress s' p' t')
    (hl : s.ilen.toNat ≤ s.params.ibufCap.toNat) (hl' : s'.ilen.toNat ≤ s'.params.ibufCap.toNat)
    (hparams : s'.params = s.params) (hin : s'.inputText = s.inputText) :
    SameToHost (compressChain t) (compressChain t') := by
  intro v v' hv hv'
  obtain ⟨code, hcode, w, hw, hfinds⟩ := compressChain_result h hl
  obtain ⟨code', hcode', w', hw', hfinds'⟩ := compressChain_result h' hl'
  obtain rfl := Host.Outcome.next.inj (hv.symm.trans hw)
  obtain rfl := Host.Outcome.next.inj (hv'.symm.trans hw')
  rw [hin] at hcode' hfinds'
  obtain rfl := hcode.unique hcode'
  rw [hparams] at hfinds'
  exact ⟨_, hfinds, hfinds'⟩

/-! ### Both commands, issue included -/

/-- Command issue tests the same length in both machines, and an illegal one is aborted alike
(45_top_level.md R186). -/
theorem command_sameToHost {c : Byte} {o : TopOp} {chain : State → Res} {s s' : State}
    (hc : commandOf c = some o) (hp : s.phase = .idle) (hp' : s'.phase = .idle)
    (hlegal : lengthLegal o s' = lengthLegal o s)
    (hchain : lengthLegal o s = true →
      SameToHost (chain (s.clearReport.setOp o).setBusy) (chain (s'.clearReport.setOp o).setBusy)) :
    SameToHost ((issue c s).bind chain) ((issue c s').bind chain) := by
  by_cases hl : lengthLegal o s = true
  · rw [issue_of_legal hc hl, issue_of_legal hc (hlegal.trans hl)]
    exact hchain hl
  · rw [issue_of_illegal hc hl, issue_of_illegal hc (hlegal ▸ hl)]
    intro t t' ht ht'
    obtain rfl := Host.Outcome.next.inj ht
    obtain rfl := Host.Outcome.next.inj ht'
    have reported {r : State} (hr : r.phase = .idle) :
        HostFinds (.error (errInfoWord .command .idle o)) (abort .command (r.clearReport.setOp o)) :=
      ⟨_, _, rfl, by rw [abort_errinfo, setOp_phase, clearReport_phase, setOp_op, hr]⟩
    exact ⟨_, reported hp, reported hp'⟩

/-- Settles O59: COMPRESS is a function of the text and of OBUF_CAP; CF.READ ends alike on the same
bytes, and what follows it is a function of the stream, of REV and of OBUF_CAP. -/
theorem aCommandDependsOnItsInputAlone : Obligations.ACommandDependsOnItsInputAlone := by
  intro i s s' t t' hi hb hb' hok hok' hparams hilen hin h h'
  have hp := (hok.idle hb).2
  have hp' := (hok'.idle hb').2
  have hlegal (o : TopOp) : lengthLegal o s' = lengthLegal o s := by
    rw [lengthLegal, lengthLegal, hilen, hparams]
  have issued {o : TopOp} {r : State} (hr : r.phase = .idle) :
      Underway o r .idle (r.clearReport.setOp o).setBusy := hr ▸ underway_issued
  have capped {o : TopOp} {r : State} (hl : lengthLegal o r = true) :
      r.ilen.toNat ≤ r.params.ibufCap.toNat := (lengthLegal_iff.1 hl).1
  have same {r r' : Res} (hr : SameToHost r r') (hrt : commandOutcome r = .next t)
      (hrt' : commandOutcome r' = .next t') :
      statusWord t' = statusWord t ∧ t'.errinfo = t.errinfo ∧ t'.olen = t.olen ∧
        hostOutput t' = hostOutput t := by
    obtain ⟨x, hx, hx'⟩ := hr t t' hrt hrt'
    exact hx.same hx'
  cases i with
  | compress =>
    rw [exec_compress_of_idle hb] at h
    rw [exec_compress_of_idle hb'] at h'
    exact same (command_sameToHost rfl hp hp' (hlegal _) fun hl =>
      compressChain_sameToHost (issued hp) (issued hp') (capped hl)
        (capped ((hlegal _).trans hl)) hparams hin) h h'
  | decompress =>
    rw [exec_decompress_of_idle hb] at h
    rw [exec_decompress_of_idle hb'] at h'
    exact same (command_sameToHost rfl hp hp' (hlegal _) fun hl =>
      decompressChain_sameToHost (issued hp) (issued hp') (capped hl)
        (capped ((hlegal _).trans hl)) hparams hin) h h'
  | _ => cases hi

end Sys2Proof.Machine

namespace Sys2Proof.Machine

/-! ### The abort sequence (60_exceptions.md R222) -/

/-- ERRINFO.CODE of a reported error (10_state.md R25). -/
theorem errInfoCode_errInfoWord (e : Err) (p : Phase) (o : TopOp) :
    errInfoCode (errInfoWord e p o) = errCode e := by
  rw [errInfoCode, errInfoWord, BitVec.extractLsb'_append_eq_of_add_le (by decide)]
  exact BitVec.extractLsb'_eq_self

theorem errInfoPhase_errInfoWord (e : Err) (p : Phase) (o : TopOp) :
    errInfoPhase (errInfoWord e p o) = phaseCode p := by
  rw [errInfoPhase, errInfoWord, BitVec.extractLsb'_append_eq_of_le (by decide),
    BitVec.extractLsb'_append_eq_of_add_le (by decide)]
  exact BitVec.extractLsb'_eq_self

theorem errInfoOp_errInfoWord (e : Err) (p : Phase) (o : TopOp) :
    errInfoOp (errInfoWord e p o) = topOpCode o := by
  rw [errInfoOp, errInfoWord, BitVec.extractLsb'_append_eq_of_le (by decide),
    BitVec.extractLsb'_append_eq_of_le (by decide),
    BitVec.extractLsb'_append_eq_of_add_le (by decide)]
  exact BitVec.extractLsb'_eq_self

/-- Settles O12: the numbers by computation, the fields of ERRINFO from the word the abort sequence
writes, and what no command writes by its frame. -/
theorem abortRecordsTheErrorAndReturnsToIdle :
    Obligations.AbortRecordsTheErrorAndReturnsToIdle := by
  refine ⟨⟨rfl, rfl, rfl, rfl, rfl, rfl, rfl, rfl, rfl, rfl, rfl⟩, fun e s => ?_⟩
  have kept : Agrees State.beyondCommands s (abort e s) := abort_beyondCommands e (.refl _ s)
  rw [abort_errinfo]
  exact ⟨errInfoCode_errInfoWord e _ _, errInfoPhase_errInfoWord e _ _,
    errInfoOp_errInfoWord e _ _, errInfoWord_reserved e _ _, rfl, rfl, rfl, rfl, rfl, rfl,
    kept.map State.ibuf, kept.map State.ilen, kept.map State.params, kept.map State.inputs⟩

/-! ### Component operations run stand-alone -/

/-- STATUS is made of fields that the frame keeps (10_state.md R24). -/
theorem Keeps.statusWord {s t : State} (h : Keeps s t) : statusWord t = statusWord s := by
  rw [Machine.statusWord, Machine.statusWord, h.op, h.phase, h.err, h.done, h.busy]

/-- Settles O21: the host registers are in the frame that every component operation keeps. -/
theorem standAloneOperationsLeaveTheHostRegisters :
    Obligations.StandAloneOperationsLeaveTheHostRegisters := by
  intro i s t hi h
  have kept := component_keeps hi h
  exact ⟨kept.statusWord, kept.errinfo, kept.olen⟩

end Sys2Proof.Machine

namespace Sys2Proof.Machine

/-! ### What the host finds of a command that has ended -/

namespace HostFinds

variable {x : Except Word (List Byte)} {w : Word} {output : List Byte} {t : State}

/-- Either way the machine is back at Idle, in DONE or in ERR (60_exceptions.md R219). -/
theorem ended (h : HostFinds x t) :
    t.busy = false ∧ t.op = .idle ∧ t.phase = .idle ∧ t.done = !t.err := by
  cases x with
  | ok output =>
    obtain ⟨⟨hdone, herr, hbusy, hop, hphase, -, -⟩, -⟩ := h
    exact ⟨hbusy, hop, hphase, by rw [hdone, herr, Bool.not_false]⟩
  | error w =>
    obtain ⟨e, u, rfl, -⟩ := h
    exact ⟨rfl, rfl, rfl, rfl⟩

theorem eq_error_of_err (h : HostFinds x t) (herr : t.err = true) : ∃ w, x = .error w := by
  cases x with
  | ok output =>
    obtain ⟨⟨-, hnone, -⟩, -⟩ := h
    exact absurd (hnone.symm.trans herr) (by decide)
  | error w => exact ⟨w, rfl⟩

/-- The registers and the output after a completed command (45_top_level.md R192). -/
theorem shown_ok (h : HostFinds (.ok output) t) :
    statusWord t = 2#32 ∧ t.errinfo = 0#32 ∧ t.olen.toNat = output.length ∧
      hostOutput t = output := by
  obtain ⟨hcompleted, hout⟩ := h
  obtain ⟨-, -, -, -, -, hinfo, -⟩ := id hcompleted
  refine ⟨statusWord_completed hcompleted, hinfo, ?_, hout⟩
  rw [← hout, hostOutput, readBytes_length]

/-- The registers after an abort (60_exceptions.md R222). -/
theorem shown_error (h : HostFinds (.error w) t) :
    statusWord t = 4#32 ∧ t.olen = 0#32 ∧ t.errinfo = w := by
  obtain ⟨e, u, rfl, hinfo⟩ := h
  exact ⟨statusWord_abort e u, rfl, hinfo⟩

end HostFinds

/-- The operations end, back at Idle, in DONE or in an error whose ERRINFO is in `Report`. -/
def EndsReporting (Report : Word → Prop) (r : Res) : Prop :=
  ∃ x t, commandOutcome r = .next t ∧ HostFinds x t ∧ ∀ w, x = .error w → Report w

theorem endsReporting_raise {Report : Word → Prop} {e : Err} {s : State}
    (h : Report (errInfoWord e s.phase s.op)) : EndsReporting Report (.raise e s) :=
  ⟨.error _, _, rfl, ⟨e, s, rfl, abort_errinfo e s⟩, fun _ hw => Except.error.inj hw ▸ h⟩

/-- An illegal length ends a command at its issue, with the phase it was issued in reported
(45_top_level.md R186). -/
theorem issue_endsReporting {Report : Word → Prop} {c : Byte} {o : TopOp} {chain : State → Res}
    {s : State} (hc : commandOf c = some o) (hillegal : Report (errInfoWord .command s.phase o))
    (hchain : lengthLegal o s = true →
      EndsReporting Report (chain (s.clearReport.setOp o).setBusy)) :
    EndsReporting Report ((issue c s).bind chain) := by
  by_cases hl : lengthLegal o s = true
  · rw [issue_of_legal hc hl]
    exact hchain hl
  · rw [issue_of_illegal hc hl]
    exact endsReporting_raise hillegal

/-! ### OLEN is the length that WPOS has reached -/

/-- OLEN counts the bytes up to WPOS (45_top_level.md R187, R189). -/
def OlenMeasures (s : State) : Prop := s.olen.toNat = s.wpos

theorem ends_top (r : Res) : r.Ends (fun _ => True) fun _ => True := by cases r <;> trivial

/-- A length that fits OBUF fits the 32 bits of OLEN. -/
theorem olenMeasures_setOlen {s : State} (h : WposFits s) : OlenMeasures s.setOlen := by
  rw [OlenMeasures, setOlen_olen, BitVec.toNat_ofNat, setOlen_wpos]
  exact Nat.mod_eq_of_lt (h.trans_lt s.params.obufCap.isLt)

theorem writePart_olenMeasures (s : State) : (writePart s).Ends OlenMeasures fun _ => True :=
  ends_thenPhase (ends_bind (ends_top_of_holds (cfWrite_wposFits s) fun _ ht => ht)
    fun _ ht => olenMeasures_setOlen ht)

theorem bitsPart_wposFits (s : State) : (bitsPart s).Ends WposFits fun _ => True :=
  ends_thenPhase (ends_top_of_holds (bpDecode_wposFits s) fun _ ht => ht)

theorem compressChain_olenMeasures (s : State) :
    (compressChain s).Ends OlenMeasures fun _ => True :=
  ends_bind (ends_bind (ends_top _) fun t _ => writePart_olenMeasures t) fun _ ht => ht

theorem decompressChain_olenMeasures (s : State) :
    (decompressChain s).Ends OlenMeasures fun _ => True := by
  have walked := ends_bind (ends_top ((headerPart s).bind tablePart)) fun t _ =>
    bitsPart_wposFits t
  have measured := ends_bind (k := lengthPart) (D' := OlenMeasures) walked
    fun t ht => olenMeasures_setOlen ht
  exact ends_bind measured fun _ ht => ht

/-- A command that completes has come to the end of its chain. -/
theorem olenMeasures_of_command {c : Byte} {chain : State → Res} {s t : State}
    (hchain : ∀ u, (chain u).Ends OlenMeasures fun _ => True)
    (h : commandOutcome ((issue c s).bind chain) = .next t) : t.err = false → OlenMeasures t :=
  commandOutcome_keeps (P := fun u => u.err = false → OlenMeasures u)
    (ends_mono (ends_bind (ends_top (issue c s)) fun u _ => hchain u) (fun _ hu _ => hu)
      fun _ hu => hu)
    (fun e u _ herr => absurd herr (by simp [abort])) h

/-! ### How a command ends (60_exceptions.md R219, R222, R223) -/

/-- The end of either command: back at Idle, the input kept, no byte beyond output or payload
changed where it completes, and an ERRINFO of `Report` where it fails. -/
structure CommandEnded (Report : Word → Prop) (s t : State) : Prop where
  sequencer : t.busy = false ∧ t.op = .idle ∧ t.phase = .idle ∧ t.done = !t.err
  input : t.ibuf = s.ibuf ∧ t.ilen = s.ilen
  kept : t.err = false → (∀ a, t.olen.toNat ≤ a → t.obuf.read .obuf a = s.obuf.read .obuf a) ∧
    ∀ a, t.plen.toNat ≤ a → t.payload.read .payload a = s.payload.read .payload a
  reported : t.err = true → t.olen = 0#32 ∧ Report t.errinfo

/-- What the frames of the two commands have in common. -/
theorem command_frame {i : Instr} {s t : State} (hi : isComponent i = false)
    (h : exec i s = .next t) : (t.ibuf = s.ibuf ∧ t.ilen = s.ilen) ∧
      (t.err = false → ObufKeptBeyond s t ∧ PayloadKeptBeyond s t) := by
  cases i with
  | compress =>
    obtain ⟨hframe, hwrites⟩ := execCompress_writes h
    exact ⟨⟨(congrArg State.ibuf hframe :), (congrArg State.ilen hframe :)⟩,
      fun herr => (hwrites herr).2⟩
  | decompress =>
    obtain ⟨hframe, hwrites⟩ := execDecompress_writes h
    exact ⟨⟨(congrArg State.ibuf hframe :), (congrArg State.ilen hframe :)⟩,
      fun herr => (hwrites herr).2⟩
  | _ => cases hi

/-- A command issued with BUSY = 0 that completes has come to the end of its chain. -/
theorem command_olenMeasures {i : Instr} {s t : State} (hi : isComponent i = false)
    (hb : s.busy = false) (h : exec i s = .next t) : t.err = false → OlenMeasures t := by
  cases i with
  | compress =>
    exact olenMeasures_of_command compressChain_olenMeasures (exec_compress_of_idle hb ▸ h)
  | decompress =>
    exact olenMeasures_of_command decompressChain_olenMeasures (exec_decompress_of_idle hb ▸ h)
  | _ => cases hi

theorem commandEnded_of_reporting {Report : Word → Prop} {i : Instr} {r : Res} {s : State}
    (hi : isComponent i = false) (hb : s.busy = false) (hexec : exec i s = commandOutcome r)
    (hr : EndsReporting Report r) : ∃ t, exec i s = .next t ∧ CommandEnded Report s t := by
  obtain ⟨x, t, ht, hfinds, hreports⟩ := hr
  have h := hexec.trans ht
  obtain ⟨hinput, hwrites⟩ := command_frame hi h
  refine ⟨t, h, hfinds.ended, hinput, fun herr => ?_, fun herr => ?_⟩
  · obtain ⟨hobuf, hpayload⟩ := hwrites herr
    have hlen : t.olen.toNat = t.wpos := command_olenMeasures hi hb h herr
    exact ⟨fun a ha => hobuf a (hlen ▸ ha), hpayload⟩
  · obtain ⟨w, rfl⟩ := hfinds.eq_error_of_err herr
    obtain ⟨-, holen, rfl⟩ := hfinds.shown_error
    exact ⟨holen, hreports _ rfl⟩

/-! ### How COMPRESS ends (45_top_level.md R187, R191) -/

/-- What ERRINFO can hold after a COMPRESS issued in phase `p`. -/
def CompressReports (p : Phase) (w : Word) : Prop :=
  w = errInfoWord .command p .compress ∨
    w = errInfoWord .outputOverflow .codesGenerated .compress ∨
    w = errInfoWord .outputOverflow .packed .compress

theorem CompressReports.code {p : Phase} {w : Word} (h : CompressReports p w) :
    errInfoCode w = errCode .command ∨ errInfoCode w = errCode .outputOverflow := by
  rcases h with rfl | rfl | rfl
  · exact .inl (errInfoCode_errInfoWord _ _ _)
  · exact .inr (errInfoCode_errInfoWord _ _ _)
  · exact .inr (errInfoCode_errInfoWord _ _ _)

theorem compressResult_reports {code : Table Bits} {text : List Byte} {cap : Nat} {w : Word}
    (p : Phase) (h : compressResult code text cap = .error w) : CompressReports p w := by
  unfold compressResult at h
  split at h
  · exact .inr (.inl (Except.error.inj h).symm)
  · split at h
    · exact .inr (.inr (Except.error.inj h).symm)
    · cases h

theorem execCompress_ends {s : State} (hb : s.busy = false) :
    ∃ t, exec .compress s = .next t ∧ CommandEnded (CompressReports s.phase) s t := by
  refine commandEnded_of_reporting rfl hb (exec_compress_of_idle hb)
    (issue_endsReporting rfl (.inl rfl) fun hl => ?_)
  obtain ⟨_, -, t, ht, hfinds⟩ := compressChain_result underway_issued (lengthLegal_iff.1 hl).1
  exact ⟨_, t, ht, hfinds, fun _ => compressResult_reports _⟩

theorem freq_of_exec_fcCount {s f : State} (hl : s.ilen.toNat ≤ s.params.ibufCap.toNat)
    (h : exec .fcCount s = .next f) : f.freq = countText s.inputText := by
  have hexec := h.symm.trans (congrArg (unitOutcome _) (fcCount_of_legal hl))
  rw [← inputText_of_legal hl] at hexec
  exact congrArg State.freq (Host.Outcome.next.inj hexec)

/-- TB.BUILD and CG.GEN, run stand-alone, make the codes that COMPRESS makes. -/
theorem codeOfText_of_exec {f b c : State} {text : List Byte} (hfreq : f.freq = countText text)
    (hb : exec .tbBuild f = .next b) (hc : exec .cgGen b = .next c) : CodeOfText text c.code := by
  obtain ⟨u, hu, code, hcode, hcodes⟩ := completes_iff.1 (tbBuild_codeOfText hfreq)
  obtain rfl := Host.Outcome.next.inj (hb.symm.trans (congrArg (unitOutcome _) hu))
  obtain rfl := Host.Outcome.next.inj
    (hc.symm.trans (exec_cgGen_of_codesOf (s := u.setResult none) hcodes))
  exact hcode

/-- Settles O57: a legal COMPRESS gives `compressResult` of the text under its codes, whose three
cases are the three outcomes, and an illegal one is aborted at its issue. -/
theorem compressEndsWithOneOfItsTwoErrors : Obligations.CompressEndsWithOneOfItsTwoErrors := by
  refine ⟨fun s hb => ?_, fun s f b c hb hl hf hbuild hgen => ?_⟩
  · obtain ⟨t, ht, ⟨hbusy, hop, hphase, hdone⟩, ⟨hibuf, hilen⟩, hkept, hreported⟩ :=
      execCompress_ends hb
    refine ⟨t, ht, hbusy, hop, hphase, hdone, hibuf, hilen, hkept, fun herr => ?_⟩
    obtain ⟨holen, hreport⟩ := hreported herr
    exact ⟨holen, hreport.code, fun hidle => hidle ▸ hreport⟩
  · obtain ⟨code, hcode, t, ht, hfinds⟩ := execCompress_result hb hl
    obtain rfl := hcode.unique
      (codeOfText_of_exec (freq_of_exec_fcCount (lengthLegal_iff.1 hl).1 hf) hbuild hgen)
    have hmax : Config.maxBitCount = 2 ^ 32 - 1 := rfl
    rw [compressResult, hmax] at hfinds
    refine ⟨fun hfit hroom => ?_, fun hfit hover => ?_, fun hlong => ?_⟩
    · rw [if_neg (Nat.not_lt.2 hfit), if_neg (Nat.not_lt.2 hroom)] at hfinds
      exact ⟨t, ht, hfinds.shown_ok⟩
    · rw [if_neg (Nat.not_lt.2 hfit), if_pos hover] at hfinds
      exact ⟨t, ht, hfinds.shown_error⟩
    · rw [if_pos hlong] at hfinds
      exact ⟨t, ht, hfinds.shown_error⟩

end Sys2Proof.Machine

namespace Sys2Proof.Machine

/-! ### CF.READ of any input (44_container.md R171 to R176) -/

/-- The operation completes with `P`, or raises FormatError; it never stops (60_exceptions.md
R219). -/
def Res.Reads (P : State → Prop) : Res → Prop
  | .done s => P s
  | .raise e _ => e = .format
  | .stop _ => False

theorem reads_bind {P Q : State → Prop} {r : Res} {k : State → Res} (hr : r.Reads P)
    (hk : ∀ s, P s → (k s).Reads Q) : (r.bind k).Reads Q := by
  cases r with
  | done s => exact hk s hr
  | raise e s => exact hr
  | stop f => exact hr.elim

/-- What the operation completes with may be said by another lemma. -/
theorem reads_of_ends {P D : State → Prop} {r : Res} (hr : r.Reads P)
    (hd : r.Ends D fun _ => True) : r.Reads D := by
  cases r with
  | done s => exact hd
  | raise e s => exact hr
  | stop f => exact hr

/-- ILEN is legal, and RPOS has not passed it. -/
def Readable (s : State) : Prop := s.ilen.toNat ≤ s.params.ibufCap.toNat ∧ s.rpos ≤ s.ilen.toNat

section Readable

variable {P : State → Prop} {s : State}

/-- `Need(n)` finds its bytes or raises FormatError (20_memory.md R68). -/
theorem need_reads {n : Nat} {k : List Byte → State → Res} (h : Readable s)
    (hk : ∀ bs, Readable { s with rpos := s.rpos + n } →
      (k bs { s with rpos := s.rpos + n }).Reads P) : (need n s k).Reads P := by
  obtain ⟨hl, hr⟩ := h
  rw [need_of_legal n s k hr hl]
  split
  · exact rfl
  · exact hk _ ⟨hl, Nat.not_lt.1 (by assumption)⟩

theorem needByte_reads {k : Byte → State → Res} (h : Readable s)
    (hk : ∀ b t, Readable t → (k b t).Reads P) : (needByte s k).Reads P :=
  need_reads h fun _ ht => hk _ _ ht

theorem storeEntry_reads (sym : Byte) (chars : List Byte) (h : Readable s) :
    (storeEntry sym chars s).Reads Readable := by
  unfold storeEntry
  split
  · exact rfl
  · split
    · exact rfl
    · split
      · exact rfl
      · exact h

theorem readEntry_reads (h : Readable s) : (readEntry s).Reads Readable := by
  refine needByte_reads h fun sym t ht => needByte_reads ht fun len u hu => ?_
  split
  · exact rfl
  · exact need_reads hu fun chars hv => storeEntry_reads sym chars hv

theorem readEntries_reads (n : Nat) (h : Readable s) : (readEntries n s).Reads Readable := by
  induction n generalizing s with
  | zero => exact h
  | succ n ih => exact reads_bind (readEntry_reads h) fun _ => ih

theorem readPayload_reads (h : Readable s) : (readPayload s).Reads Readable :=
  need_reads h fun _ ht => need_reads (s := { s with rpos := _, vbc := _, plen := _ }) ht
    fun _ hu => hu

theorem readHeader_reads (hl : s.ilen.toNat ≤ s.params.ibufCap.toNat) :
    (readHeader s).Reads Readable :=
  need_reads (s := { s with rpos := 0, rev := [] }) ⟨hl, Nat.zero_le _⟩ fun _ ht => ht

/-- Where steps 2 to 4 complete, BP.DECODE finds its stream within the payload. -/
theorem readBody_reads (h : Readable s) : (readBody s).Reads StreamFits := by
  have hreads : (readBody s).Reads Readable :=
    reads_bind (readEntries_reads _ h) fun _ => readPayload_reads
  exact reads_of_ends hreads (ends_mono (readBody_payloadKept s) (fun _ ht => ht.2) fun _ ht => ht)

end Readable

/-! ### How DECOMPRESS ends (45_top_level.md R189, R191) -/

/-- What ERRINFO can hold after a DECOMPRESS issued in phase `p`. -/
def DecompressReports (p : Phase) (w : Word) : Prop :=
  w = errInfoWord .command p .decompress ∨ w = errInfoWord .format p .decompress ∨
    w = errInfoWord .format .headerParsed .decompress ∨
    w = errInfoWord .incompleteData .tableLoaded .decompress ∨
    w = errInfoWord .outputOverflow .tableLoaded .decompress

theorem DecompressReports.code {p : Phase} {w : Word} (h : DecompressReports p w) :
    errInfoCode w = errCode .command ∨ errInfoCode w = errCode .format ∨
      errInfoCode w = errCode .incompleteData ∨ errInfoCode w = errCode .outputOverflow := by
  rcases h with rfl | rfl | rfl | rfl | rfl <;> rw [errInfoCode_errInfoWord]
  · exact .inl rfl
  · exact .inr (.inl rfl)
  · exact .inr (.inl rfl)
  · exact .inr (.inr (.inl rfl))
  · exact .inr (.inr (.inr rfl))

theorem decodeResult_reports {syms : List Byte} {left : Bits} {cap : Nat} {w : Word} (p : Phase)
    (h : decodeResult syms left cap = .error w) : DecompressReports p w := by
  unfold decodeResult at h
  split at h
  · exact .inr (.inr (.inr (.inr (Except.error.inj h).symm)))
  · split at h
    · cases h
    · exact .inr (.inr (.inr (.inl (Except.error.inj h).symm)))

/-- A part of CF.READ inside the command: it completes and the command runs on, or its FormatError
is reported with the phase it was raised in. -/
theorem Underway.part_endsReporting {o : TopOp} {s t : State} {p p' : Phase} {r : Res}
    {P : State → Prop} {rest : State → Res} {Report : Word → Prop} (h : Underway o s p t)
    (hk : r.Holds (Keeps t)) (hr : r.Reads fun u => P (u.setPhase p'))
    (hformat : Report (errInfoWord .format p o))
    (hrest : ∀ u, Underway o s p' u → P u → EndsReporting Report (rest u)) :
    EndsReporting Report ((Machine.thenPhase p' r).bind rest) := by
  cases r with
  | done u => exact hrest _ ((h.of_keeps hk).setPhase p') hr
  | raise e u =>
    obtain rfl : e = .format := hr
    have hu := h.of_keeps hk
    refine endsReporting_raise ?_
    rwa [hu.phase, hu.op]
  | stop f => exact hr.elim

theorem decompressChain_reports {s t : State} {p : Phase} (h : Underway .decompress s p t)
    (hl : s.ilen.toNat ≤ s.params.ibufCap.toNat) :
    EndsReporting (DecompressReports p) (decompressChain t) := by
  rw [decompressChain, bind_assoc, bind_assoc, bind_assoc]
  refine h.part_endsReporting (P := Readable) (readHeader_keeps t)
    (readHeader_reads (h.legal hl)) (.inr (.inl rfl)) fun u hu hread => ?_
  refine hu.part_endsReporting (P := StreamFits) (readBody_keeps u) (readBody_reads hread)
    (.inr (.inr (.inl rfl))) fun v hv hfits => ?_
  obtain ⟨w, hw, hfinds⟩ := bitsPart_hostFinds hv hfits rfl
  exact ⟨_, w, bind_assoc (bitsPart v) lengthPart finishPart ▸ hw, hfinds,
    fun _ => decodeResult_reports p⟩

theorem execDecompress_ends {s : State} (hb : s.busy = false) :
    ∃ t, exec .decompress s = .next t ∧ CommandEnded (DecompressReports s.phase) s t :=
  commandEnded_of_reporting rfl hb (exec_decompress_of_idle hb)
    (issue_endsReporting rfl (.inl rfl) fun hl =>
      decompressChain_reports underway_issued (lengthLegal_iff.1 hl).1)

/-- Settles O58: CF.READ completes or raises FormatError on every input, and what follows it is
`decodeResult` of the stored stream, whose three cases are the outcomes on a container. -/
theorem decompressEndsWithOneOfItsFourErrors :
    Obligations.DecompressEndsWithOneOfItsFourErrors := by
  refine ⟨fun s hb => ?_, fun s es vbc payload hb hl hin => ?_⟩
  · obtain ⟨t, ht, ⟨hbusy, hop, hphase, hdone⟩, ⟨hibuf, hilen⟩, hkept, hreported⟩ :=
      execDecompress_ends hb
    refine ⟨t, ht, hbusy, hop, hphase, hdone, hibuf, hilen, hkept, fun herr => ?_⟩
    obtain ⟨holen, hreport⟩ := hreported herr
    exact ⟨holen, hreport.code, fun hidle => hidle ▸ hreport⟩
  · obtain ⟨t, ht, hfinds⟩ := execDecompress_of_container hb hl hin rfl
    rw [decodeResult] at hfinds
    refine ⟨fun hroom hnil => ?_, fun hroom hleft => ?_, fun hover => ?_⟩
    · rw [if_neg (Nat.not_lt.2 hroom), if_pos hnil] at hfinds
      exact ⟨t, ht, hfinds.shown_ok⟩
    · rw [if_neg (Nat.not_lt.2 hroom), if_neg hleft] at hfinds
      exact ⟨t, ht, hfinds.shown_error⟩
    · rw [if_pos hover] at hfinds
      exact ⟨t, ht, hfinds.shown_error⟩

end Sys2Proof.Machine

namespace Sys2Proof.Machine

/-! ### The parameters of the instance (00_scope.md R7, R8) -/

section InstanceParams

variable {s t : State}

theorem abort_params (e : Err) (s : State) : Agrees State.params s (abort e s) :=
  (abort_beyondCommands e (Agrees.refl _ s)).map State.params

theorem issue_params (c : Byte) (s : State) : (issue c s).Holds (Agrees State.params s) := by
  rcases issue_cases c s with ⟨_, h⟩ | ⟨_, _, _, h⟩ | ⟨_, _, _, h⟩ <;> rw [h] <;> exact rfl

theorem enginePart_params (hb : s.busy = true) :
    (enginePart s).Holds (Agrees State.params s) := by
  have kept {p : Phase} {r : Res} (hr : r.Holds (Keeps s)) :
      (thenPhase p r).Ends (Agrees State.params s) (Agrees State.params s) :=
    ends_thenPhase (ends_of_holds hr (fun _ hk => hk.params) fun _ hk => hk.params)
  have written : (writePart s).Ends (Agrees State.params s) (Agrees State.params s) :=
    ends_thenPhase (ends_bind
      (ends_of_holds (cfWrite_keeps s) (fun _ hk => hk.params) fun _ hk => hk.params)
      fun _ ht => ht)
  exact ends_self.1 (enginePart_ends hb
    (count := fun _ => kept (fcCount_keeps s))
    (tree := fun _ => kept (tbBuild_keeps s))
    (code := fun _ => kept (keeps_bind (cgGen_keeps s) cgInvert_keeps))
    (pack := fun _ => kept (bpEncode_keeps s))
    (write := fun _ => written)
    (header := fun _ => kept (readHeader_keeps s))
    (table := fun _ => kept (readBody_keeps s))
    (bits := fun _ => kept (bpDecode_keeps s))
    (length := fun _ => rfl)
    (finish := rfl))

theorem commandOutcome_params {r : Res} (hr : r.Holds (Agrees State.params s))
    (h : commandOutcome r = .next t) : Agrees State.params s t :=
  commandOutcome_keeps (ends_self.2 hr) (fun e u hu => Agrees.trans hu (abort_params e u)) h

/-- A component operation keeps the whole frame, and the instance is among what no command writes. -/
theorem exec_params {i : Instr} (h : exec i s = .next t) : Agrees State.params s t := by
  cases i with
  | compress =>
    obtain ⟨frame, _⟩ := execCompress_writes h
    exact (congrArg State.params frame :)
  | decompress =>
    obtain ⟨frame, _⟩ := execDecompress_writes h
    exact (congrArg State.params frame :)
  | _ => exact (component_keeps rfl h).params

theorem HostAccess.params (h : HostAccess s t) : Agrees State.params s t := by
  cases h <;> exact rfl

theorem StepDoes.params (h : StepDoes s t) : Agrees State.params s t := by
  cases h with
  | nothing => exact rfl
  | reset => exact applyReset_params s
  | access _ ha => exact ha.params
  | issue c _ hn => exact commandOutcome_params (issue_params c s) hn
  | part hb hn => exact commandOutcome_params (enginePart_params hb) hn
  | operation i _ he => exact exec_params he

end InstanceParams

/-- Settles O19: everything that a step can do keeps the parameters. -/
theorem noStepChangesTheInstance : Obligations.NoStepChangesTheInstance := by
  intro s t hstep
  obtain ⟨l, hdoes⟩ := step_does hstep
  exact StepDoes.params (s := { s with inputs := l }) hdoes

/-! ### The reset event (70_reset_and_hazards.md R240; 10_state.md R43) -/

theorem step_of_reset {s : State} {rest : List Input} (hin : s.inputs = .reset :: rest) :
    step s = .next { s with inputs := rest }.applyReset := by
  rw [step, advance, hin]
  rfl

/-- STATUS is 0 where the sequencer is idle and no flag is set (10_state.md R24). -/
theorem statusWord_of_cleared {s : State} (hop : s.op = .idle) (hphase : s.phase = .idle)
    (hbusy : s.busy = false) (hdone : s.done = false) (herr : s.err = false) :
    statusWord s = 0#32 := by
  rw [statusWord, hop, hphase, hbusy, hdone, herr]
  decide

/-- Settles O3: the reset event is one step from every state, and each value is that of
`State.resetWith`. -/
theorem resetInAnyStateLeavesTheResetValues :
    Obligations.ResetInAnyStateLeavesTheResetValues := by
  refine ⟨fun s rest hin => ?_, fun p => ?_⟩
  · exact ⟨_, step_of_reset hin, rfl, rfl, statusWord_of_cleared rfl rfl rfl rfl rfl,
      rfl, rfl, rfl, rfl, rfl, rfl⟩
  · exact ⟨rfl, rfl, statusWord_of_cleared rfl rfl rfl rfl rfl, rfl, rfl, rfl, rfl, rfl⟩

end Sys2Proof.Machine
